-- ==== Sys2Proof/Word.lean ====
section
/-! DEFINITION. The widths of the block: bytes, 16-bit and 32-bit words (00_scope.md R8, R18). -/

namespace Sys2Proof

/-- A byte (R8). -/
abbrev Byte := BitVec 8

/-- A 16-bit value: CRC values, packed stamps, A16 (R18). -/
abbrev Half := BitVec 16

/-- A 32-bit register or command word (10_state.md R31, 30_encoding.md R100). -/
abbrev Word := BitVec 32

end Sys2Proof
end

