-- ==== Sys2Proof/Syntax.lean ====
section
/-! DEFINITION. The 19 operations of the opcode map (30_encoding.md R102), one constructor per row of spec/opcode_table.json.
An operand is the number the assembler syntax writes (R105); WellFormed.lean says that it fits its field. -/

namespace Sys2Proof

/-- A host operation (R102; operands: log 19). `p` is the FB byte offset of a decode operation, `n` the interval of SETPER, `b`
the byte of CRC_BYTE (R100). -/
inductive Instr
  | nop
  | crcClr
  | crcByte (b : Nat)
  | crcBuf
  | verify
  | crcAppend
  | decSnap (p : Nat)
  | decArca (p : Nat)
  | decArcb (p : Nat)
  | decArc (p : Nat)
  | decHdr (p : Nat)
  | decPage (p : Nat)
  | wake
  | setper (n : Nat)
  | clrlog
  | pollRt
  | download
  | pollArc
  | abort
  deriving DecidableEq, Repr

end Sys2Proof
end

