-- ==== Sys2Proof/WellFormed.lean ====
section
/-! DEFINITION. Which terms of Instr are instructions: the operand fits the field that encodes it (30_encoding.md R100, R101). -/

namespace Sys2Proof

/-- The byte of CRC_BYTE fits A8; the offset of a decode operation and the interval of SETPER fit A16 (R100). -/
def Instr.wf : Instr → Bool
  | .crcByte b => decide (b < 2 ^ 8)
  | .decSnap p => decide (p < 2 ^ 16)
  | .decArca p => decide (p < 2 ^ 16)
  | .decArcb p => decide (p < 2 ^ 16)
  | .decArc p => decide (p < 2 ^ 16)
  | .decHdr p => decide (p < 2 ^ 16)
  | .decPage p => decide (p < 2 ^ 16)
  | .setper n => decide (n < 2 ^ 16)
  | .nop => true
  | .crcClr => true
  | .crcBuf => true
  | .verify => true
  | .crcAppend => true
  | .wake => true
  | .clrlog => true
  | .pollRt => true
  | .download => true
  | .pollArc => true
  | .abort => true

end Sys2Proof
end

