-- ==== Sys2Proof/Decode.lean ====
section
/-! DEFINITION. Decoding a command word, total on every 32-bit word, and the encoder (30_encoding.md R100 to R105). -/

namespace Sys2Proof

/-- Why a command word is no operation. -/
inductive DecodeError
  | reservedOp (op : Byte)   -- an OP value R102 does not list (R103)
  deriving DecidableEq, Repr

/-- OP, bits [7:0] (R100). -/
def opField (w : Word) : Byte := w.extractLsb' 0 8

/-- A8, bits [15:8], unsigned (R100, R101). -/
def a8Field (w : Word) : Nat := (w.extractLsb' 8 8).toNat

/-- A16, bits [31:16], unsigned, unscaled (R100, R101). -/
def a16Field (w : Word) : Nat := (w.extractLsb' 16 16).toNat

/-- The operation a command word selects: from OP alone (R102), argument fields it does not use ignored (R101); an OP value
that R102 does not list is refused by name (R103). -/
def decodeWord (w : Word) : Except DecodeError Instr :=
  match (opField w).toNat with
  | 0x00 => .ok .nop
  | 0x01 => .ok .crcClr
  | 0x02 => .ok (.crcByte (a8Field w))
  | 0x03 => .ok .crcBuf
  | 0x04 => .ok .verify
  | 0x05 => .ok .crcAppend
  | 0x10 => .ok (.decSnap (a16Field w))
  | 0x11 => .ok (.decArca (a16Field w))
  | 0x12 => .ok (.decArcb (a16Field w))
  | 0x13 => .ok (.decArc (a16Field w))
  | 0x14 => .ok (.decHdr (a16Field w))
  | 0x15 => .ok (.decPage (a16Field w))
  | 0x20 => .ok .wake
  | 0x21 => .ok (.setper (a16Field w))
  | 0x22 => .ok .clrlog
  | 0x23 => .ok .pollRt
  | 0x24 => .ok .download
  | 0x25 => .ok .pollArc
  | 0x3F => .ok .abort
  | _ => .error (.reservedOp (opField w))

/-- The OP value of an operation (R102). -/
def Instr.opcode : Instr → Byte
  | .nop => 0x00
  | .crcClr => 0x01
  | .crcByte _ => 0x02
  | .crcBuf => 0x03
  | .verify => 0x04
  | .crcAppend => 0x05
  | .decSnap _ => 0x10
  | .decArca _ => 0x11
  | .decArcb _ => 0x12
  | .decArc _ => 0x13
  | .decHdr _ => 0x14
  | .decPage _ => 0x15
  | .wake => 0x20
  | .setper _ => 0x21
  | .clrlog => 0x22
  | .pollRt => 0x23
  | .download => 0x24
  | .pollArc => 0x25
  | .abort => 0x3F

/-- The A8 argument; an operation without one writes 0 (R101, R105). -/
def Instr.a8 : Instr → Nat
  | .crcByte b => b
  | .decSnap _ => 0
  | .decArca _ => 0
  | .decArcb _ => 0
  | .decArc _ => 0
  | .decHdr _ => 0
  | .decPage _ => 0
  | .setper _ => 0
  | .nop => 0
  | .crcClr => 0
  | .crcBuf => 0
  | .verify => 0
  | .crcAppend => 0
  | .wake => 0
  | .clrlog => 0
  | .pollRt => 0
  | .download => 0
  | .pollArc => 0
  | .abort => 0

/-- The A16 argument; an operation without one writes 0 (R101, R105). -/
def Instr.a16 : Instr → Nat
  | .decSnap p => p
  | .decArca p => p
  | .decArcb p => p
  | .decArc p => p
  | .decHdr p => p
  | .decPage p => p
  | .setper n => n
  | .crcByte _ => 0
  | .nop => 0
  | .crcClr => 0
  | .crcBuf => 0
  | .verify => 0
  | .crcAppend => 0
  | .wake => 0
  | .clrlog => 0
  | .pollRt => 0
  | .download => 0
  | .pollArc => 0
  | .abort => 0

/-- The command word of an operation: `(a16 << 16) | (a8 << 8) | OP` (R105). -/
def encode (i : Instr) : Word :=
  (BitVec.ofNat 32 i.a16 <<< 16) ||| (BitVec.ofNat 32 i.a8 <<< 8) ||| i.opcode.setWidth 32

/-- The command word the host writes for an instruction of `nbits` bits `w`, every bit above them 0. The block has one
instruction length, 32 bits (R104). -/
def tableWord (nbits w : Nat) : Word := BitVec.ofNat 32 (w % 2 ^ nbits)

/-- What the decoder reads from an instruction numbered as spec/opcode_table.json numbers it: one 32-bit command word, bit 0
its least significant (R100). -/
def decodeTableWord (nbits w : Nat) : Option Instr :=
  match decodeWord (tableWord nbits w) with
  | .ok i => some i
  | .error _ => none

end Sys2Proof
end

