-- ==== Sys2Proof/Config.lean ====
section
/-! DEFINITION. The parameters of the hardware (00_scope.md R7), the data types they and the free values range over, and the
free values: constants without a body, for what the spec leaves open. The parameters' values stand in Machine/Layouts.lean. -/

namespace Sys2Proof

/-! ## Record layouts (41_record_codec.md R160 to R162) -/

/-- The field names of the five layouts (R163 to R169). -/
inductive FieldName
  | marker | barTrend | packetType | nextRec | pressure | tempIn | humIn | tempOut | windSpeed | windSpeed10Min | windDir
  | extraTemps | soilTemps | leafTemps | humOut | humExtra | rainRate | uv | solarRad | rainStorm | stormStartDate
  | rainDay | rainMonth | rainYear | etDay | etMonth | etYear | soilMoist | leafWetness | alarmIn | alarmRain | alarmOut
  | alarmExTempHum | alarmSoilLeaf | batteryStatus | batteryVolts | forecastIcon | forecastRuleNo | sunRise | sunSet | eol | crc
  | dateStamp | timeStamp | tempOutHi | tempOutLow | rainRain | rainRateHi | barometer | windSamps | windAvg | windHi
  | windHiDir | windAvgDir | etHour
  | unused1 | extraHum | reedClosed | reedOpened | unused2
  | solarRadHi | uvHi | recType
  deriving DecidableEq, Repr

/-- The primitive kinds of stage 1 (R161). -/
inductive Kind
  | u8 | u16 | t16 | bytes (n : Nat) | crc16
  deriving DecidableEq, Repr

/-- The width of a kind in bytes (R161). -/
def Kind.width : Kind → Nat
  | .u8 => 1
  | .u16 => 2
  | .t16 => 2
  | .bytes n => n
  | .crc16 => 2

/-- The transforms of stage 2 (R162). `div10`, `div100` and `div1000` of the spec are `div 10`, `div 100`, `div 1000`. -/
inductive Transform
  | raw | div (n : Nat) | batt | off90 | split | adate | atime | sdate | hhmm
  deriving DecidableEq, Repr

/-- One entry of a layout; its offset is the sum of the widths before it (R160). -/
structure Entry where
  name : FieldName
  kind : Kind
  transform : Transform
  deriving DecidableEq, Repr

/-- A layout: an ordered sequence of entries (R160). -/
abbrev Layout := List Entry

/-- The size of a layout in bytes. -/
def Layout.size : Layout → Nat
  | [] => 0
  | e :: es => e.kind.width + Layout.size es

/-- The offset of each entry, the first at `o`: what the spec's tables list in their first column. -/
def Layout.offsets (o : Nat) : Layout → List Nat
  | [] => []
  | e :: es => o :: Layout.offsets (o + e.kind.width) es

/-! ## Decoded values (00_scope.md R12) -/

/-- The value of one decoded field. Numbers are exact: integers, or rationals (R12, 41_record_codec.md R170); strings are
lists of ASCII bytes (R12). -/
inductive Value
  | num (v : Int)
  | bytes (bs : List Byte)
  | ratio (q : Rat)
  | ints (vs : List Int)
  | adate (raw : Half) (year month day : Nat)
  | atime (raw : Half) (hour minute : Nat)
  | sdate (year month day : Nat) (text : List Byte)
  | hhmm (hour minute : Nat) (text : List Byte)
  deriving DecidableEq, Repr, Inhabited

/-- A decoded record: one named value per layout entry (R181 to R183). -/
abbrev Record := List (FieldName × Value)

/-- The revision of a decoded archive record (10_state.md R43, R44). -/
inductive ArcRev
  | a | b
  deriving DecidableEq, Repr, Inhabited

/-- An element of RLIST: a revision and a record decoded under it (10_state.md R44). -/
structure ArcEntry where
  rev : ArcRev
  record : Record
  deriving DecidableEq, Repr, Inhabited

/-- The value of RESULT (10_state.md R43). -/
inductive Result
  | none
  | snap (r : Record)
  | arc (e : ArcEntry)
  | hdr (pages offset crc : Half)
  | page (index : Byte) (blob padding : List Byte) (crc : Half)
  deriving DecidableEq, Repr, Inhabited

/-- The answer of an Rx (20_memory.md R82). -/
inductive RxAnswer
  | data (bs : List Byte)
  | timeout
  deriving DecidableEq, Repr, Inhabited

/-! ## Parameters (00_scope.md R7) -/

/-- A duration in milliseconds. No rule depends on one (70_reset_and_hazards.md R392). -/
abbrev Millis := Nat

/-- What three unconfirmed replies give (42_handshake.md R235). -/
inductive UnconfirmedPolicy
  | escalate | proceed
  deriving DecidableEq, Repr

/-- The parameters of R7, one field each. The type `Half` of `crcInit` holds a CRC of CRC_WIDTH = 16 bits; `LayoutsOk` asks for
that width. LAYOUT_A and LAYOUT_B are the common prefix followed by the revision's tail (41_record_codec.md R165). RESULT_MAP is
open and has no value to hold: results are read as typed values (92_eei_decisions.md D27; log 13). -/
structure Config where
  poly : Half
  crcWidth : Nat
  crcInit : Half
  retries : Nat
  tAck : Millis
  tOk : Millis
  tData : Millis
  pRetry : Millis
  snapSize : Nat
  arcSize : Nat
  hdrSize : Nat
  pageSize : Nat
  blobSize : Nat
  slots : Nat
  padSize : Nat
  sentinel : Half
  discOffset : Nat
  layoutSnap : Layout
  layoutPrefix : Layout
  layoutTailA : Layout
  layoutTailB : Layout
  tempSigned : Bool
  unconfirmedPolicy : UnconfirmedPolicy
  fbSize : Nat
  recCap : Nat
  deriving DecidableEq, Repr

/-- LAYOUT_A (R166). -/
def Config.layoutA (c : Config) : Layout := c.layoutPrefix ++ c.layoutTailA

/-- LAYOUT_B (R167). -/
def Config.layoutB (c : Config) : Layout := c.layoutPrefix ++ c.layoutTailB

/-! ## Free values

Constants without a body. A claim that needs one of them is a claim about every value it may have. -/

/-- The device's answer at the n-th draw, when `State.answers` holds none (20_memory.md R82, 93 item 9; log 2). -/
opaque Config.deviceAnswer : Nat → RxAnswer

/-- What a host read of a register returns while BUSY = 1 (44_control.md R324, 93 item 2; log 3). -/
opaque Config.busyWord : Nat → Word

/-- What a host read of FB returns while BUSY = 1 (20_memory.md R73; log 3). -/
opaque Config.busyByte : Nat → Byte

/-- What a host read of RESULT returns while BUSY = 1 (44_control.md R324; log 3). -/
opaque Config.busyResult : Nat → Result

/-- What a host read of RLIST returns while BUSY = 1 (44_control.md R324; log 3). -/
opaque Config.busyRlist : Nat → List ArcEntry

end Sys2Proof
end

