-- ==== Sys2Proof/Machine/Operands.lean ====
section
/-! DEFINITION. Byte sequences, byte order, decimal text and packed stamps: the operand forms of every rule (00_scope.md R9 to
R18, 20_memory.md R76 to R78). -/

namespace Sys2Proof.Machine

/-! ## Reads of a byte sequence (R11) -/

/-- `u8(bs, o)` (R11). Every caller has checked the length. -/
def u8 (bs : List Byte) (o : Nat) : Byte := bs.getD o 0

/-- `le16(bs, o)`: little-endian (R11, 20_memory.md R77). -/
def le16 (bs : List Byte) (o : Nat) : Half := u8 bs (o + 1) ++ u8 bs o

/-- `be16(bs, o)`: big-endian, for CRC fields (R11, 20_memory.md R76). -/
def be16 (bs : List Byte) (o : Nat) : Half := u8 bs o ++ u8 bs (o + 1)

/-- `bs[o..o+n)` (R9). -/
def slice (bs : List Byte) (o n : Nat) : List Byte := (bs.drop o).take n

/-- `s16(v)`: two's complement reading (R11). -/
def s16 (v : Half) : Int := v.toInt

/-- `le16bytes(v)` (R11). -/
def le16bytes (v : Half) : List Byte := [v.extractLsb' 0 8, v.extractLsb' 8 8]

/-- `be16bytes(v)` (R11). -/
def be16bytes (v : Half) : List Byte := [v.extractLsb' 8 8, v.extractLsb' 0 8]

/-- Does an input of `size` bytes at offset `p` end within `len`, computed without overflow (41_record_codec.md R186)? -/
def fits (p size len : Nat) : Bool := decide (p + size ≤ len)

/-! ## Decimal text (R14, R15) -/

/-- The ASCII code of a decimal digit (R14). -/
def asciiDigit (d : Nat) : Byte := BitVec.ofNat 8 (0x30 + d)

/-- Decimal digits of `v`, most significant first, at most `fuel` of them. -/
def digits : (fuel : Nat) → (v : Nat) → List Byte
  | 0, _ => []
  | fuel + 1, v => if v < 10 then [asciiDigit v] else digits fuel (v / 10) ++ [asciiDigit (v % 10)]

/-- `dec(v)`: decimal ASCII digits with no leading zeros (R15). -/
def dec (v : Nat) : List Byte := digits (v + 1) v

/-- Left-pad with "0" to at least `n` characters; a wider text is not truncated (R15). -/
def padTo (n : Nat) (text : List Byte) : List Byte := List.replicate (n - text.length) 0x30 ++ text

/-- `pad2(v)` (R15). -/
def pad2 (v : Nat) : List Byte := padTo 2 (dec v)

/-- `pad4(v)` (R15). -/
def pad4 (v : Nat) : List Byte := padTo 4 (dec v)

/-! ## Stamps (R17) -/

/-- A (date-stamp, time-stamp) pair. -/
abbrev Stamp := Half × Half

/-- `x < y` on stamps: lexicographic, date first, as unsigned 16-bit integers (43_download.md R282). -/
def stampLt (x y : Stamp) : Bool := x.1.ult y.1 || (x.1 == y.1 && x.2.ult y.2)

/-! ## Wire tokens and frames (30_encoding.md R106, R107) -/

/-- WAKE_REQ (R106). -/
def wakeReq : List Byte := [0x0A]

/-- WAKE_ACK (R106). -/
def wakeAck : List Byte := [0x0A, 0x0D]

/-- ACK (R106). -/
def ackToken : List Byte := [0x06]

/-- OK, the literal confirmation "\n\rOK\n\r" (R106). -/
def okToken : List Byte := [0x0A, 0x0D, 0x4F, 0x4B, 0x0A, 0x0D]

/-- ESC (R106). -/
def escToken : List Byte := [0x1B]

/-- "SETPER" in ASCII (R107). -/
def textSetper : List Byte := [0x53, 0x45, 0x54, 0x50, 0x45, 0x52]

/-- "CLRLOG" in ASCII (R107). -/
def textClrlog : List Byte := [0x43, 0x4C, 0x52, 0x4C, 0x4F, 0x47]

/-- "LOOP" in ASCII (R107). -/
def textLoop : List Byte := [0x4C, 0x4F, 0x4F, 0x50]

/-- "DMPAFT" in ASCII (R107). -/
def textDmpaft : List Byte := [0x44, 0x4D, 0x50, 0x41, 0x46, 0x54]

/-- `cmdframe(text, args)`: the text, each argument after a space in decimal, a space and a newline (R107, 42_handshake.md R232). -/
def cmdframe (text : List Byte) (args : List Nat) : List Byte :=
  text ++ (args.map fun a => 0x20 :: dec a).flatten ++ [0x20, 0x0A]

end Sys2Proof.Machine
end

