-- ==== Sys2Proof/Machine/Crc.lean ====
section
/-! DEFINITION. The CRC function and frame validity (40_crc.md R130 to R132), the watermark frame (20_memory.md R78). -/

namespace Sys2Proof.Machine

/-- One bit of the table's construction: shift left, and exclusive-or with the polynomial when bit 15 was set (R130). -/
def crcBit (poly c : Half) : Half := if c.msb then (c <<< 1) ^^^ poly else c <<< 1

/-- The table entry `T[i]`: eight bit steps from `i << 8` (R130). -/
def crcTable (poly : Half) (i : Byte) : Half :=
  let c0 := i.setWidth 16 <<< 8
  crcBit poly (crcBit poly (crcBit poly (crcBit poly (crcBit poly (crcBit poly (crcBit poly (crcBit poly c0)))))))

/-- `step(acc, b) = T[(acc >> 8) ^ b] ^ ((acc & 0xFF) << 8)` (R131). -/
def crcStep (poly acc : Half) (b : Byte) : Half :=
  crcTable poly ((acc >>> 8).setWidth 8 ^^^ b) ^^^ ((acc &&& 0x00FF) <<< 8)

/-- The accumulator after the bytes of `bs`, from `acc` (R131). -/
def crcFrom (poly acc : Half) (bs : List Byte) : Half := bs.foldl (crcStep poly) acc

/-- `crc(bs)` (R131). -/
def crc (c : Config) (bs : List Byte) : Half := crcFrom c.poly c.crcInit bs

/-- `verify(bs)`: false for an empty input, otherwise whether `crc(bs)` is 0 (R132). -/
def verify (c : Config) (bs : List Byte) : Bool := !bs.isEmpty && crc c bs == 0x0000

/-- The 4 bytes of the watermark cursor, date first, little-endian (20_memory.md R78). -/
def watermarkBody (date time : Half) : List Byte := le16bytes date ++ le16bytes time

/-- The watermark buffer with its big-endian CRC (20_memory.md R78, 43_download.md R272). -/
def watermarkFrame (c : Config) (date time : Half) : List Byte :=
  watermarkBody date time ++ be16bytes (crc c (watermarkBody date time))

end Sys2Proof.Machine
end

