-- ==== Sys2Proof/Machine/Codec.lean ====
section
/-! DEFINITION. The record codec: stage-1 reads, stage-2 transforms, and the decoders of the five shapes (41_record_codec.md
R160 to R185). -/

namespace Sys2Proof.Machine

/-! ## Stage 1 (R161) -/

/-- A stage-1 value: a number or a byte sequence. -/
inductive RawValue
  | num (v : Int)
  | bytes (bs : List Byte)
  deriving DecidableEq, Repr

/-- The stage-1 read of a kind at offset `p` (R161). `signed` is TEMP_SIGNED (R179). -/
def readKind (signed : Bool) (k : Kind) (bs : List Byte) (p : Nat) : RawValue :=
  match k with
  | .u8 => .num (u8 bs p).toNat
  | .u16 => .num (le16 bs p).toNat
  | .t16 => .num (if signed then s16 (le16 bs p) else (le16 bs p).toNat)
  | .bytes n => .bytes (slice bs p n)
  | .crc16 => .num (be16 bs p).toNat

/-! ## Stage 2 (R162, R170 to R178) -/

/-- `off90` (R171). -/
def off90 (bs : List Byte) : List Int := bs.map fun b => (b.toNat : Int) - 90

/-- `split` (R172). -/
def splitBytes (bs : List Byte) : List Int := bs.map fun b => (b.toNat : Int)

/-- `adate`: year in bits [15:9], month in [8:5], day in [4:0], no range check (R173, 00_scope.md R17). -/
def expandDate (d : Half) : Value :=
  .adate d (2000 + (d.extractLsb' 9 7).toNat) (d.extractLsb' 5 4).toNat (d.extractLsb' 0 5).toNat

/-- `atime`: hour × 100 + minute, no range check (R174). -/
def expandTime (t : Half) : Value := .atime t (t.toNat / 100) (t.toNat % 100)

/-- `sdate`: year in bits [6:0], day in [11:7], month in [15:12], with its "YYYY-MM-DD" text (R175). -/
def expandStormDate (v : Half) : Value :=
  let y := 2000 + (v.extractLsb' 0 7).toNat
  let d := (v.extractLsb' 7 5).toNat
  let m := (v.extractLsb' 12 4).toNat
  .sdate y m d (pad4 y ++ [0x2D] ++ pad2 m ++ [0x2D] ++ pad2 d)

/-- `hhmm`: the pair with its "HH:MM" text, no range check (R177). -/
def expandClock (v : Half) : Value :=
  .hhmm (v.toNat / 100) (v.toNat % 100) (pad2 (v.toNat / 100) ++ [0x3A] ++ pad2 (v.toNat % 100))

/-- A number transform (R162): the exact rationals of R170 and R178, and the packed fields. -/
def applyNum (t : Transform) (v : Int) : Value :=
  match t with
  | .raw => .num v
  | .div n => .ratio (mkRat v n)
  | .batt => .ratio (mkRat (v * 300) (512 * 100))
  | .adate => expandDate (BitVec.ofInt 16 v)
  | .atime => expandTime (BitVec.ofInt 16 v)
  | .sdate => expandStormDate (BitVec.ofInt 16 v)
  | .hhmm => expandClock (BitVec.ofInt 16 v)
  | .off90 => .num v
  | .split => .num v

/-- A byte-sequence transform (R162). -/
def applyBytes (t : Transform) (bs : List Byte) : Value :=
  match t with
  | .off90 => .ints (off90 bs)
  | .split => .ints (splitBytes bs)
  | .raw => .bytes bs
  | .div _ => .bytes bs
  | .batt => .bytes bs
  | .adate => .bytes bs
  | .atime => .bytes bs
  | .sdate => .bytes bs
  | .hhmm => .bytes bs

/-- The stage-2 transform of a stage-1 value (R162). -/
def applyTransform (t : Transform) : RawValue → Value
  | .num v => applyNum t v
  | .bytes bs => applyBytes t bs

/-- A transform fits the kind of its entry: `off90` and `split` are for byte sequences, the numeric ones for numbers, a scaled
number has a positive divisor (R161, R162). Every entry of the hardware's layouts does. -/
def entryOk (e : Entry) : Bool :=
  match e.kind, e.transform with
  | .bytes _, .raw => true
  | .bytes _, .off90 => true
  | .bytes _, .split => true
  | .bytes _, _ => false
  | _, .off90 => false
  | _, .split => false
  | _, .div n => decide (0 < n)
  | _, _ => true

/-! ## Layout decoding (R160) -/

/-- The value of one entry at offset `p` (R160, R181). -/
def decodeEntry (signed : Bool) (e : Entry) (bs : List Byte) (p : Nat) : Value :=
  applyTransform e.transform (readKind signed e.kind bs p)

/-- Decode a layout at offset `p`: one named value per entry, in order, each entry at the sum of the widths before it (R160). -/
def decodeLayout (signed : Bool) : Layout → List Byte → Nat → Record
  | [], _, _ => []
  | e :: es, bs, p => (e.name, decodeEntry signed e bs p) :: decodeLayout signed es bs (p + e.kind.width)

/-- The value of a field of a record. -/
def getField (r : Record) (f : FieldName) : Option Value := r.lookup f

/-- The raw date-stamp a decoded archive record holds (R173); every archive layout with R164's prefix has one. -/
def dateStampOf (r : Record) : Half :=
  match getField r .dateStamp with
  | some (.adate raw _ _ _) => raw
  | _ => 0x0000

/-- The raw time-stamp a decoded archive record holds (R174); every archive layout with R164's prefix has one. -/
def timeStampOf (r : Record) : Half :=
  match getField r .timeStamp with
  | some (.atime raw _ _) => raw
  | _ => 0x0000

/-- The stamp pair of a record (43_download.md R282). -/
def stampOf (r : Record) : Stamp := (dateStampOf r, timeStampOf r)

/-! ## The decoders (R181 to R185) -/

/-- `decodeSnap(bs, p)` (R181). -/
def decodeSnap (c : Config) (bs : List Byte) (p : Nat) : Record := decodeLayout c.tempSigned c.layoutSnap bs p

/-- `decodePrefix(bs, p)`, the fields both revisions share (R164, R165). -/
def decodePrefix (c : Config) (bs : List Byte) (p : Nat) : Record := decodeLayout c.tempSigned c.layoutPrefix bs p

/-- `decodeTailA(bs, p)` for a record at `p` (R165, R166). -/
def decodeTailA (c : Config) (bs : List Byte) (p : Nat) : Record :=
  decodeLayout c.tempSigned c.layoutTailA bs (p + c.layoutPrefix.size)

/-- `decodeTailB(bs, p)` for a record at `p` (R165, R167). -/
def decodeTailB (c : Config) (bs : List Byte) (p : Nat) : Record :=
  decodeLayout c.tempSigned c.layoutTailB bs (p + c.layoutPrefix.size)

/-- `decodeA(bs, p)` (R182). -/
def decodeA (c : Config) (bs : List Byte) (p : Nat) : Record := decodePrefix c bs p ++ decodeTailA c bs p

/-- `decodeB(bs, p)` (R183). -/
def decodeB (c : Config) (bs : List Byte) (p : Nat) : Record := decodePrefix c bs p ++ decodeTailB c bs p

/-- Decode an archive record under a revision (R182, R183). -/
def decodeArc (c : Config) (rev : ArcRev) (bs : List Byte) (p : Nat) : ArcEntry :=
  match rev with
  | .a => { rev := .a, record := decodeA c bs p }
  | .b => { rev := .b, record := decodeB c bs p }

/-- `decodeHdr(bs, p)`: pages, offset, CRC (R168, R184). -/
def decodeHdr (bs : List Byte) (p : Nat) : Result := .hdr (le16 bs p) (le16 bs (p + 2)) (be16 bs (p + 4))

/-- `decodePage(bs, p)`: index, blob, padding, CRC (R169, R185). -/
def decodePage (c : Config) (bs : List Byte) (p : Nat) : Result :=
  .page (u8 bs p) (slice bs (p + 1) c.blobSize) (slice bs (p + 1 + c.blobSize) c.padSize)
    (be16 bs (p + 1 + c.blobSize + c.padSize))

end Sys2Proof.Machine
end

