-- ==== Sys2Proof/Machine/Layouts.lean ====
section
/-! DEFINITION. The parameter values of this hardware (00_scope.md R7) with its record layouts (41_record_codec.md R163, R164,
R166, R167). The layouts' offsets are the spec's general knowledge (decision D6; log 14). -/

namespace Sys2Proof.Machine

/-- LAYOUT_SNAP, the 99-byte snapshot (R163). -/
def layoutSnapTable : Layout :=
  [⟨.marker, .bytes 3, .raw⟩,
   ⟨.barTrend, .u8, .raw⟩,
   ⟨.packetType, .u8, .raw⟩,
   ⟨.nextRec, .u16, .raw⟩,
   ⟨.pressure, .u16, .div 1000⟩,
   ⟨.tempIn, .t16, .div 10⟩,
   ⟨.humIn, .u8, .raw⟩,
   ⟨.tempOut, .t16, .div 10⟩,
   ⟨.windSpeed, .u8, .raw⟩,
   ⟨.windSpeed10Min, .u8, .raw⟩,
   ⟨.windDir, .u16, .raw⟩] ++
  [⟨.extraTemps, .bytes 7, .off90⟩,
   ⟨.soilTemps, .bytes 4, .off90⟩,
   ⟨.leafTemps, .bytes 4, .off90⟩,
   ⟨.humOut, .u8, .raw⟩,
   ⟨.humExtra, .bytes 7, .split⟩,
   ⟨.rainRate, .u16, .div 100⟩,
   ⟨.uv, .u8, .raw⟩,
   ⟨.solarRad, .u16, .raw⟩,
   ⟨.rainStorm, .u16, .div 100⟩,
   ⟨.stormStartDate, .u16, .sdate⟩,
   ⟨.rainDay, .u16, .div 100⟩] ++
  [⟨.rainMonth, .u16, .div 100⟩,
   ⟨.rainYear, .u16, .div 100⟩,
   ⟨.etDay, .u16, .div 1000⟩,
   ⟨.etMonth, .u16, .div 100⟩,
   ⟨.etYear, .u16, .div 100⟩,
   ⟨.soilMoist, .bytes 4, .split⟩,
   ⟨.leafWetness, .bytes 4, .split⟩,
   ⟨.alarmIn, .u8, .raw⟩,
   ⟨.alarmRain, .u8, .raw⟩,
   ⟨.alarmOut, .u16, .raw⟩,
   ⟨.alarmExTempHum, .bytes 8, .split⟩] ++
  [⟨.alarmSoilLeaf, .bytes 4, .split⟩,
   ⟨.batteryStatus, .u8, .raw⟩,
   ⟨.batteryVolts, .u16, .batt⟩,
   ⟨.forecastIcon, .u8, .raw⟩,
   ⟨.forecastRuleNo, .u8, .raw⟩,
   ⟨.sunRise, .u16, .hhmm⟩,
   ⟨.sunSet, .u16, .hhmm⟩,
   ⟨.eol, .bytes 2, .raw⟩,
   ⟨.crc, .crc16, .raw⟩]

/-- The archive common prefix, bytes 0 to 29 of both revisions (R164). -/
def layoutPrefixTable : Layout :=
  [⟨.dateStamp, .u16, .adate⟩,
   ⟨.timeStamp, .u16, .atime⟩,
   ⟨.tempOut, .t16, .div 10⟩,
   ⟨.tempOutHi, .t16, .div 10⟩,
   ⟨.tempOutLow, .t16, .div 10⟩,
   ⟨.rainRain, .u16, .div 100⟩,
   ⟨.rainRateHi, .u16, .div 100⟩,
   ⟨.barometer, .u16, .div 1000⟩,
   ⟨.solarRad, .u16, .raw⟩,
   ⟨.windSamps, .u16, .raw⟩,
   ⟨.tempIn, .t16, .div 10⟩] ++
  [⟨.humIn, .u8, .raw⟩,
   ⟨.humOut, .u8, .raw⟩,
   ⟨.windAvg, .u8, .raw⟩,
   ⟨.windHi, .u8, .raw⟩,
   ⟨.windHiDir, .u8, .raw⟩,
   ⟨.windAvgDir, .u8, .raw⟩,
   ⟨.uv, .u8, .raw⟩,
   ⟨.etHour, .u8, .div 1000⟩]

/-- The revision-A tail, bytes 30 to 51 (R166). -/
def layoutTailATable : Layout :=
  [⟨.unused1, .u8, .raw⟩,
   ⟨.soilMoist, .bytes 4, .split⟩,
   ⟨.soilTemps, .bytes 4, .off90⟩,
   ⟨.leafWetness, .bytes 4, .split⟩,
   ⟨.extraTemps, .bytes 2, .off90⟩,
   ⟨.extraHum, .bytes 2, .split⟩,
   ⟨.reedClosed, .u16, .raw⟩,
   ⟨.reedOpened, .u16, .raw⟩,
   ⟨.unused2, .u8, .raw⟩]

/-- The revision-B tail, bytes 30 to 51, with the discriminator RecType (R167). -/
def layoutTailBTable : Layout :=
  [⟨.solarRadHi, .u16, .raw⟩,
   ⟨.uvHi, .u8, .raw⟩,
   ⟨.forecastRuleNo, .u8, .raw⟩,
   ⟨.leafTemps, .bytes 2, .off90⟩,
   ⟨.leafWetness, .bytes 2, .split⟩,
   ⟨.soilTemps, .bytes 4, .off90⟩,
   ⟨.recType, .u8, .raw⟩,
   ⟨.extraHum, .bytes 2, .split⟩,
   ⟨.extraTemps, .bytes 3, .off90⟩,
   ⟨.soilMoist, .bytes 4, .split⟩]

/-- The parameters of this hardware (00_scope.md R7). -/
def cfg : Config where
  poly := 0x1021
  crcWidth := 16
  crcInit := 0x0000
  retries := 3
  tAck := 1200
  tOk := 5000
  tData := 5000
  pRetry := 1000
  snapSize := 99
  arcSize := 52
  hdrSize := 6
  pageSize := 267
  blobSize := 260
  slots := 5
  padSize := 4
  sentinel := 0xFFFF
  discOffset := 42
  layoutSnap := layoutSnapTable
  layoutPrefix := layoutPrefixTable
  layoutTailA := layoutTailATable
  layoutTailB := layoutTailBTable
  tempSigned := true
  unconfirmedPolicy := .escalate
  fbSize := 512
  recCap := 327675

end Sys2Proof.Machine
end

