-- ==== Sys2Proof/Machine/State.lean ====
section
/-! DEFINITION. The state of the block as plain data, its value after reset, and the reasons a step can stop
(10_state.md R30 to R48). -/

namespace Sys2Proof.Machine

/-! ## Why a step stops -/

/-- A fault: the run is outside the spec. -/
inductive Fault
  /-- Raised by an operation (CRC_BUF, VERIFY, CRC_APPEND, the decode family) or a host read that reads a byte of FB nothing has
  written since reset (70_reset_and_hazards.md R390, 93_implementation_defined.md item 1). Safe: the spec itself asks a model to
  fault here, and nothing is proved about the byte. -/
  | unwrittenFb
  deriving DecidableEq, Repr

/-- A refusal: not a step of the model. -/
inductive Refusal
  /-- Raised by exec for an operation without a meaning; no arm of exec does. Safe. -/
  | notModelled (mnemonic : String)
  /-- Raised by a host access of a width or an alignment outside the interface (20_memory.md R72, 93_implementation_defined.md
  item 3 "refuse"). Safe: nothing is proved about such an access. -/
  | outsideInterface
  deriving DecidableEq, Repr

/-! ## Named values of register fields -/

/-- The outcome codes of STATUS.CODE (60_exceptions.md R340); codes 8 to 15 are never produced. -/
inductive Code
  | ok | deviceUnreachable | noNewRecords | noResult | decodeFail | illegalOp | cancelled | bufOverflow
  deriving DecidableEq, Repr

/-- The format-revision flag REV (10_state.md R36); 0b11 is never produced. -/
inductive Rev
  | unknown | a | b
  deriving DecidableEq, Repr

/-- The sequencer phases of STATUS.SEQ (10_state.md R41); 10 to 15 are never produced. -/
inductive Phase
  | idle | wake | send | headerSent | headerReceived | pageLoop | dataRead | pause | done | aborted
  deriving DecidableEq, Repr

/-! ## The running operation (10_state.md R45) -/

/-- The serial operations (10_state.md R30), `n` the interval of SETPER. -/
inductive SerialOp
  | wake | setper (n : Nat) | clrlog | pollRt | download | pollArc
  deriving DecidableEq, Repr

/-- The Tx suspension points: the wake request (42_handshake.md R231), the command frame (R233), the watermark frame
(43_download.md R272), the escape byte (R273, R275), the acknowledgements of a header (R273) and of a page (R275). -/
inductive TxPoint
  | wake | send | watermark | escape | headerAck | pageAck
  deriving DecidableEq, Repr

/-- The Rx suspension points: the wake acknowledgement (R231), the confirmation (R233), the watermark acknowledgement (R272),
the header (R273), a page (R275), a snapshot frame (R286). -/
inductive RxPoint
  | wake | confirm | watermarkAck | header | page | snapshot
  deriving DecidableEq, Repr

/-- The retry pauses: between download attempts (R281) and between snapshot reads (R286). -/
inductive PausePoint
  | attempt | snapshot
  deriving DecidableEq, Repr

/-- Where a serial operation waits (20_memory.md R85). A Tx point is a Tx that has started. -/
inductive Point
  | tx (p : TxPoint)
  | rx (p : RxPoint)
  | pause (p : PausePoint)
  deriving DecidableEq, Repr

/-- An Rx request with its answer (20_memory.md R84); an Rx that an ABORT abandoned has none (44_control.md R322). -/
structure RxRecord where
  n : Nat
  timeout : Millis
  answer : Option RxAnswer
  deriving DecidableEq, Repr

/-- The hidden state of the running operation; it exists only while BUSY = 1 and is gone after finish (10_state.md R45). The page
index `i` is PROG.PIDX and the attempt's page count is PROG.PAGES (log 10). `received` is the receive history: the requests of
the operation's Rx with their answers. -/
structure Task where
  op : SerialOp
  point : Point
  kw : Nat
  ks : Nat
  kr : Nat
  kd : Nat
  offset : Half
  records : List ArcEntry
  pcrc : Half
  rxbuf : List Byte
  received : List RxRecord
  deriving DecidableEq, Repr

/-! ## What the outside does (the model's own, log 1) -/

/-- The width of a host access (20_memory.md R72). -/
inductive Width
  | byte | half | word
  deriving DecidableEq, Repr

/-- A host access: a read or a write of the host register space at a 12-bit byte address (20_memory.md R70), or a read of
the typed results (10_state.md R31, RESULT_MAP; log 13). -/
inductive Access
  | read (w : Width) (a : BitVec 12)
  | write (w : Width) (a : BitVec 12) (v : Word)
  | readResult
  | readRlist
  deriving DecidableEq, Repr

/-- What a host read returned. -/
inductive ReadData
  | word (v : Word)
  | byte (v : Byte)
  | result (r : Result)
  | rlist (l : List ArcEntry)
  deriving DecidableEq, Repr

/-- One input: a host access, the completion of what the sequencer waits for, the host waiting for completion
(30_encoding.md R105 WAITDONE), or reset (70_reset_and_hazards.md R380). -/
inductive Input
  | host (a : Access)
  | proceed
  | waitDone
  | reset
  deriving DecidableEq, Repr

/-- The frame buffer's storage: (index, byte) pairs, indexes strictly rising; an index not listed is unwritten (R48; log 4). -/
abbrev Memory := List Host.Cell

/-! ## The state -/

/-- Everything the spec gives the block (10_state.md R31 to R45), and from `rxLog` on the model's own fields (log 1, log 2, log 3,
log 9). `rxLog` is what an observer of the serial channel has seen (20_memory.md R84); the block's own receive history is
`Task.received` and ends with the operation (R45).
BUSY is the presence of `task` (R33: 1 from the acceptance of a serial operation until its finish). -/
structure State where
  cmd : Word
  done : Bool
  valid : Bool
  ovr : Bool
  code : Code
  rev : Rev
  lastop : Byte
  seq : Phase
  acc : Half
  len : BitVec 10
  wmDate : Half
  wmTime : Half
  selValid : Bool
  selIndex : BitVec 19
  pages : Half
  pidx : Half
  fb : Memory
  result : Result
  rlist : List ArcEntry
  abortReq : Bool
  task : Option Task
  txLog : List (List Byte)
  rxLog : List RxRecord
  inputs : List Input
  answers : List RxAnswer
  draws : Nat
  rdata : Option ReadData
  deriving DecidableEq, Repr

/-- STATUS.BUSY (R33). -/
def State.busy (s : State) : Bool := s.task.isSome

/-- TXLOG, the sequence of all bytes transmitted since reset (R45). -/
def State.txBytes (s : State) : List Byte := s.txLog.flatten

/-- COUNT of RLCNT (R38). -/
def State.count (s : State) : Nat := s.rlist.length

/-- The block right after reset (10_state.md R48). The model's own fields start empty (log 1, log 2, log 3, log 9). -/
def State.reset : State where
  cmd := 0x00000000
  done := false
  valid := false
  ovr := false
  code := .ok
  rev := .unknown
  lastop := 0x00
  seq := .idle
  acc := 0x0000
  len := 0
  wmDate := 0x0000
  wmTime := 0x0000
  selValid := false
  selIndex := 0
  pages := 0
  pidx := 0
  fb := []
  result := .none
  rlist := []
  abortReq := false
  task := none
  txLog := []
  rxLog := []
  inputs := []
  answers := []
  draws := 0
  rdata := none

end Sys2Proof.Machine
end

