-- ==== Sys2Proof/Machine/Ops.lean ====
section
/-! DEFINITION. The named operations over the frame buffer and the registers, acceptance and completion of an operation
(10_state.md R32, 20_memory.md R73 to R75, 60_exceptions.md R345). -/

namespace Sys2Proof.Machine

/-! ## The frame buffer's storage -/

/-- What index `i` holds, `none` when nothing has written it (10_state.md R48; log 4). -/
def Memory.read (m : Memory) (i : Nat) : Option Byte := m.lookup i

/-- Store `v` at index `i`, keeping the indexes strictly rising. -/
def Memory.write : Memory → Nat → Byte → Memory
  | [], i, v => [(i, v)]
  | (j, b) :: rest, i, v =>
    if i < j then (i, v) :: (j, b) :: rest
    else if i = j then (i, v) :: rest
    else (j, b) :: Memory.write rest i v

/-- The canonical form: indexes strictly rising. An index not listed has no value, so no entry repeats one. -/
def Memory.wf : Memory → Bool
  | [] => true
  | [_] => true
  | (i, _) :: (j, b) :: rest => decide (i < j) && Memory.wf ((j, b) :: rest)

/-- `MemRead(a, n)`: the bytes `FB[a..a+n)`, `none` when one of them is unwritten (20_memory.md R74). -/
def memRead (m : Memory) (a : Nat) : (n : Nat) → Option (List Byte)
  | 0 => some []
  | n + 1 =>
    match Memory.read m a, memRead m (a + 1) n with
    | some b, some bs => some (b :: bs)
    | _, _ => none

/-- `MemWrite(a, n, v)`: the bytes of `v` at `FB[a..a+n)` (20_memory.md R75). -/
def memWrite (m : Memory) (a : Nat) : List Byte → Memory
  | [] => m
  | b :: bs => memWrite (Memory.write m a b) (a + 1) bs

/-- What an operation answers. -/
abbrev Answer := Host.Outcome State Fault Refusal

/-- Go on with the bytes `FB[a..a+n)`; a byte nothing has written faults (20_memory.md R74, 70_reset_and_hazards.md R390). -/
def withBytes (s : State) (a n : Nat) (k : List Byte → Answer) : Answer :=
  match memRead s.fb a n with
  | some bs => k bs
  | none => .fault .unwrittenFb

/-! ## Acceptance and completion -/

/-- The block accepts command word `w`: CMD is latched, LASTOP set, DONE and OVR cleared (10_state.md R32). -/
def accept (w : Word) (s : State) : State :=
  { s with cmd := w, lastop := w.extractLsb' 0 8, done := false, ovr := false }

/-- `finish(code)`, the single completion step (60_exceptions.md R345): CODE and DONE are written, BUSY cleared, ABORT_REQ
cleared and the hidden loop state discarded; a serial operation, one that has BUSY = 1, also sets SEQ. -/
def finish (code : Code) (s : State) : State :=
  { s with
    code := code
    done := true
    seq := if s.busy then (if code = .ok then .done else .aborted) else s.seq
    abortReq := false
    task := none }

/-- A host write ignored because BUSY = 1 sets OVR (10_state.md R33, R46, 44_control.md R321). -/
def loseWrite (s : State) : State := { s with ovr := true }

/-! ## Registers an operation writes -/

/-- `SEL <- 0` (10_state.md R39). -/
def clearSel (s : State) : State := { s with selValid := false, selIndex := 0 }

/-- `PROG.PAGES <- 0`, `PROG.PIDX <- 0` (43_download.md R270). -/
def clearProg (s : State) : State := { s with pages := 0, pidx := 0 }

/-- `LEN`, as a number (10_state.md R37). -/
def State.lenNat (s : State) : Nat := s.len.toNat

end Sys2Proof.Machine
end

