-- ==== Sys2Proof/Machine/Flags.lean ====
section
/-! DEFINITION. The register images the host reads: STATUS bit by bit, and every other register (10_state.md R31 to R41). -/

namespace Sys2Proof.Machine

/-- The 4-bit encoding of CODE (60_exceptions.md R340). -/
def Code.bits : Code → BitVec 4
  | .ok => 0
  | .deviceUnreachable => 1
  | .noNewRecords => 2
  | .noResult => 3
  | .decodeFail => 4
  | .illegalOp => 5
  | .cancelled => 6
  | .bufOverflow => 7

/-- The 2-bit encoding of REV (10_state.md R36). -/
def Rev.bits : Rev → BitVec 2
  | .unknown => 0b00
  | .a => 0b01
  | .b => 0b10

/-- The 4-bit encoding of SEQ (10_state.md R41). -/
def Phase.bits : Phase → BitVec 4
  | .idle => 0
  | .wake => 1
  | .send => 2
  | .headerSent => 3
  | .headerReceived => 4
  | .pageLoop => 5
  | .dataRead => 6
  | .pause => 7
  | .done => 8
  | .aborted => 9

/-- VALID after VERIFY: `(LEN > 0) and (ACC = 0)` with ACC the CRC of the frame (40_crc.md R137). -/
def validFlag (len : Nat) (acc : Half) : Bool := decide (0 < len) && acc == 0x0000

/-- STATUS (10_state.md R33): SEQ [27:24], LASTOP [23:16], REV [9:8], CODE [7:4], OVR [3], VALID [2], DONE [1], BUSY [0];
every other bit reads 0 (R31). -/
def statusWord (s : State) : Word :=
  (0#4 ++ s.seq.bits ++ s.lastop ++ 0#6 ++ s.rev.bits ++ s.code.bits ++ BitVec.ofBool s.ovr ++ BitVec.ofBool s.valid ++
    BitVec.ofBool s.done ++ BitVec.ofBool s.busy : BitVec (4 + 4 + 8 + 6 + 2 + 4 + 1 + 1 + 1 + 1))

/-- CRC: ACC [15:0] (R31, R34). -/
def crcWord (s : State) : Word := (0#16 ++ s.acc : BitVec (16 + 16))

/-- FBLEN: LEN [9:0] (R31, R37). -/
def fblenWord (s : State) : Word := (0#22 ++ s.len : BitVec (22 + 10))

/-- WM: WM_DATE [31:16], WM_TIME [15:0] (R31, R35). -/
def wmWord (s : State) : Word := (s.wmDate ++ s.wmTime : BitVec (16 + 16))

/-- RLCNT: COUNT [18:0] (R31, R38; log 21). -/
def rlcntWord (s : State) : Word := (0#13 ++ BitVec.ofNat 19 s.count : BitVec (13 + 19))

/-- SEL: SEL_VALID [31], INDEX [18:0] (R31, R39). -/
def selWord (s : State) : Word := (BitVec.ofBool s.selValid ++ 0#12 ++ s.selIndex : BitVec (1 + 12 + 19))

/-- PROG: PIDX [31:16], PAGES [15:0] (R31, R40). -/
def progWord (s : State) : Word := (s.pidx ++ s.pages : BitVec (16 + 16))

end Sys2Proof.Machine
end

