-- ==== Sys2Proof/Machine/Sequencer.lean ====
section
/-! DEFINITION. The sequencer: the atomic work between suspension points of every serial operation (42_handshake.md R231 to
R238, 43_download.md R270 to R288, 44_control.md R322). A procedure of the spec that suspends is cut at its suspension points:
each function below runs from one point to the start of the next. All take the parameters of R7 as an argument. -/

namespace Sys2Proof.Machine

/-! ## Suspension points (20_memory.md R81 to R85) -/

/-- The next suspension point begins, unless ABORT_REQ = 1, which ends the operation (44_control.md R322, 60_exceptions.md R351). -/
def enter (p : Point) (t : Task) (s : State) : State :=
  let s := { s with task := some { t with point := p } }
  if s.abortReq then finish .cancelled s else s

/-- The command text, arguments and confirmation of a serial operation (30_encoding.md R107); WAKE sends none. -/
def commandOf : SerialOp → List Byte × List Nat × Bool
  | .wake => ([], [], false)
  | .setper n => (textSetper, [n], true)
  | .clrlog => (textClrlog, [], false)
  | .pollRt => (textLoop, [1], false)
  | .download => (textDmpaft, [], false)
  | .pollArc => (textDmpaft, [], false)

/-- The command frame of an operation (42_handshake.md R232). -/
def frameOf (op : SerialOp) : List Byte := cmdframe (commandOf op).1 (commandOf op).2.1

/-- Does the command expect the literal OK (42_handshake.md R233)? -/
def expectsOk (op : SerialOp) : Bool := (commandOf op).2.2

/-- The confirmation a command expects (42_handshake.md R233). -/
def confirmation (op : SerialOp) : List Byte := if expectsOk op then okToken else ackToken

/-- The bytes a Tx point transmits (42_handshake.md R231, R233, 43_download.md R272, R273, R275). WM cannot change while the
watermark frame is sent: the host's writes are ignored and the sequencer writes it only at its finish (10_state.md R35). -/
def txBytesOf (c : Config) (s : State) (t : Task) : TxPoint → List Byte
  | .wake => wakeReq
  | .send => frameOf t.op
  | .watermark => watermarkFrame c s.wmDate s.wmTime
  | .escape => escToken
  | .headerAck => ackToken
  | .pageAck => ackToken

/-- The request `(n, t)` of an Rx point (42_handshake.md R231, R233, 43_download.md R272, R273, R275, R286). -/
def rxRequest (c : Config) (t : Task) : RxPoint → Nat × Millis
  | .wake => (2, c.tAck)
  | .confirm => if expectsOk t.op then (6, c.tOk) else (1, c.tAck)
  | .watermarkAck => (1, c.tAck)
  | .header => (c.hdrSize, c.tData)
  | .page => (c.pageSize, c.tData)
  | .snapshot => (c.snapSize, c.tData)

/-- `Tx(bs)` completes: the bytes are in TXLOG (20_memory.md R81; log 6). -/
def transmit (bs : List Byte) (s : State) : State := { s with txLog := s.txLog ++ [bs] }

/-- An answer as R82 allows it: exactly `n` bytes or a timeout. Fewer bytes are a timeout, bytes past `n` are not part of
this answer (20_memory.md R82, R84; log 2). -/
def clampAnswer (n : Nat) : RxAnswer → RxAnswer
  | .timeout => .timeout
  | .data bs => if bs.length < n then .timeout else .data (bs.take n)

/-- The device's next answer: the first of `answers`, else a fresh draw (20_memory.md R82; log 2). -/
def nextAnswer (s : State) : RxAnswer × State :=
  match s.answers with
  | a :: rest => (a, { s with answers := rest })
  | [] => (Config.deviceAnswer s.draws, { s with draws := s.draws + 1 })

/-- The bytes of an answer, what the receive buffer holds after it (10_state.md R45; log 11). -/
def answerBytes : RxAnswer → List Byte
  | .data bs => bs
  | .timeout => []

/-- `Rx(n, t)` ends with an answer, seen on the channel with its request (20_memory.md R82, R84). -/
def receive (n : Nat) (timeout : Millis) (s : State) : RxAnswer × State :=
  let a := clampAnswer n (nextAnswer s).1
  (a, { (nextAnswer s).2 with rxLog := s.rxLog ++ [{ n := n, timeout := timeout, answer := some a }] })

/-- The operation keeps the answer of `Rx(n, t)`: its bytes are the receive buffer, request and answer join the receive history
(10_state.md R45). -/
def keepAnswer (n : Nat) (timeout : Millis) (a : RxAnswer) (t : Task) : Task :=
  { t with rxbuf := answerBytes a, received := t.received ++ [{ n := n, timeout := timeout, answer := some a }] }

/-! ## Revision probe, slots and pages (41_record_codec.md R176, 43_download.md R276, R277) -/

/-- The revision probe: performed only while REV is UNKNOWN (41_record_codec.md R176). -/
def probe (rev : Rev) (disc : Byte) : Rev :=
  match rev with
  | .unknown => if disc = 0 then .b else .a
  | .a => .a
  | .b => .b

/-- The layout the flag selects: B if REV = B, else A (41_record_codec.md R190, 43_download.md R277). -/
def Rev.layout : Rev → ArcRev
  | .b => .b
  | .a => .a
  | .unknown => .a

/-- An unused slot: both raw stamps are the sentinel (43_download.md R277). -/
def isSentinel (c : Config) (r : Record) : Bool := dateStampOf r == c.sentinel && timeStampOf r == c.sentinel

/-- `SlotRecord(f, q)`: probe, decode under the flag, keep unless sentinel (43_download.md R277). -/
def slotRecord (c : Config) (f : List Byte) (q : Nat) (x : Rev × List ArcEntry) : Rev × List ArcEntry :=
  let rev := probe x.1 (u8 f (q + c.discOffset))
  let e := decodeArc c rev.layout f q
  (rev, if isSentinel c e.record then x.2 else x.2 ++ [e])

/-- The slots `s, s+1, …` of a page, `n` of them; slot `s` is at `1 + ARC_SIZE × s` (43_download.md R276). -/
def walkSlots (c : Config) (f : List Byte) (s : Nat) : (n : Nat) → Rev × List ArcEntry → Rev × List ArcEntry
  | 0, x => x
  | n + 1, x => walkSlots c f (s + 1) n (slotRecord c f (1 + c.arcSize * s) x)

/-- `WalkPage(f, i, offset)`: from slot `offset` on page 0, from slot 0 on later pages, to the last slot; none when the first
is past it (43_download.md R276). -/
def walkPage (c : Config) (f : List Byte) (i offset : Nat) (x : Rev × List ArcEntry) : Rev × List ArcEntry :=
  let s0 := if i = 0 then offset else 0
  walkSlots c f s0 (c.slots - s0) x

/-! ## Selection of the newest record (43_download.md R282) -/

/-- The pair a record must exceed: the best pair so far, else the watermark (43_download.md R282). -/
def barOf (wm : Stamp) (best : Option (Nat × ArcEntry)) : Stamp :=
  match best with
  | some b => stampOf b.2.record
  | none => wm

/-- The first position, counted from `j`, whose pair exceeds `wm` and is the maximum of those that do, given the best so far. -/
def newestFrom (wm : Stamp) (j : Nat) (best : Option (Nat × ArcEntry)) : List ArcEntry → Option (Nat × ArcEntry)
  | [] => best
  | e :: es =>
    newestFrom wm (j + 1) (if stampLt (barOf wm best) (stampOf e.record) then some (j, e) else best) es

/-- `j*` with its record: the first position of the maximal pair above the watermark (43_download.md R282). -/
def newest (wm : Stamp) (l : List ArcEntry) : Option (Nat × ArcEntry) := newestFrom wm 0 none l

/-- `SelectNewest(L)`: SEL, RESULT and WM are written when there is a newest record (43_download.md R282 to R284). -/
def selectNewest (l : List ArcEntry) (s : State) : State :=
  match newest (s.wmDate, s.wmTime) l with
  | none => s
  | some (j, e) =>
    { s with
      selIndex := BitVec.ofNat 19 j
      selValid := true
      result := .arc e
      wmDate := dateStampOf e.record
      wmTime := timeStampOf e.record }

/-! ## The procedures, cut at their suspension points -/

/-- What `Wake`, `SendConfirm` and `Command` return (42_handshake.md R231, R233, R236). -/
inductive CmdResult
  | ok | unreachable
  deriving DecidableEq, Repr

/-- What `DownloadAttempt` returns (43_download.md R270). -/
inductive Attempt
  | list (l : List ArcEntry)
  | noResult
  | unreachable
  deriving DecidableEq, Repr

/-- `Unconfirmed()` (42_handshake.md R235). -/
def unconfirmed : UnconfirmedPolicy → CmdResult
  | .escalate => .unreachable
  | .proceed => .ok

/-- The outcome code of a command's result (42_handshake.md R240 to R242). -/
def CmdResult.code : CmdResult → Code
  | .ok => .ok
  | .unreachable => .deviceUnreachable

/-- `Wake()` begins (42_handshake.md R231). -/
def startWake (t : Task) (s : State) : State :=
  enter (.tx .wake) { t with kw := 1 } { s with seq := .wake }

/-- `SendConfirm` begins (42_handshake.md R233). -/
def startSend (t : Task) (s : State) : State :=
  enter (.tx .send) { t with ks := 1 } { s with seq := .send }

/-- `DownloadAttempt()` begins: PROG and the record list are cleared, then step 1 wakes the device (43_download.md R270, R271). -/
def startAttempt (t : Task) (s : State) : State :=
  startWake { t with records := [] } (clearProg s)

/-- A snapshot read begins (43_download.md R286). -/
def startSnapshotRead (t : Task) (s : State) : State :=
  enter (.rx .snapshot) t { s with seq := .dataRead }

/-- The pause before the next download attempt or snapshot read begins (43_download.md R281, R286). -/
def startPause (p : PausePoint) (t : Task) (s : State) : State :=
  enter (.pause p) t { s with seq := .pause }

/-- `DownloadAttempt()` has returned: DOWNLOAD finishes (43_download.md R279); POLL_ARC finishes or tries again (R281). -/
def attemptDone (c : Config) (t : Task) (r : Attempt) (s : State) : State :=
  match r with
  | .unreachable => finish .deviceUnreachable s
  | .list l =>
    match t.op with
    | .pollArc => finish .ok (selectNewest l { s with rlist := l })
    | _ => finish .ok { s with rlist := l }
  | .noResult =>
    match t.op with
    | .pollArc => if t.kd < c.retries then startPause .attempt t s else finish .noNewRecords s
    | _ => finish .noResult s

/-- `Command` has returned: SETPER and CLRLOG finish (42_handshake.md R241, R242); POLL_RT reads the snapshot (43_download.md
R286); a download attempt sends the watermark frame, whose CRC is computed on the private accumulator (R271, R272). -/
def commandDone (c : Config) (t : Task) (r : CmdResult) (s : State) : State :=
  match t.op, r with
  | .wake, r => finish r.code s
  | .setper _, r => finish r.code s
  | .clrlog, r => finish r.code s
  | .pollRt, .ok => startSnapshotRead { t with kr := 1 } s
  | .pollRt, .unreachable => finish .deviceUnreachable s
  | .download, .ok => enter (.tx .watermark) { t with pcrc := crc c (watermarkBody s.wmDate s.wmTime) } s
  | .download, .unreachable => attemptDone c t .unreachable s
  | .pollArc, .ok => enter (.tx .watermark) { t with pcrc := crc c (watermarkBody s.wmDate s.wmTime) } s
  | .pollArc, .unreachable => attemptDone c t .unreachable s

/-- `Wake()` has returned: WAKE finishes (42_handshake.md R240); any other operation sends its command, or gives up (R236). -/
def wakeDone (c : Config) (t : Task) (r : CmdResult) (s : State) : State :=
  match t.op, r with
  | .wake, r => finish r.code s
  | _, .ok => startSend t s
  | _, .unreachable => commandDone c t .unreachable s

/-- The page loop at index `i`: read page `i`, or return the list when `i` has reached the page count (43_download.md R275, R278). -/
def pageLoop (c : Config) (i : Nat) (t : Task) (s : State) : State :=
  if i < s.pages.toNat then enter (.rx .page) t { s with seq := .pageLoop, pidx := BitVec.ofNat 16 i }
  else attemptDone c t (.list t.records) s

/-- Check a received frame on the private accumulator (40_crc.md R139): the accumulator, and whether the frame is valid (R132). -/
def checkFrame (c : Config) (bs : List Byte) (t : Task) : Bool × Task :=
  (verify c bs, { t with pcrc := crc c bs })

/-! ## One atomic step of the sequencer (20_memory.md R85) -/

/-- What follows a completed Tx. The header fields and the page are read from the receive buffer (43_download.md R274, R275;
log 20). -/
def afterTx (c : Config) (t : Task) (p : TxPoint) (s : State) : State :=
  match p with
  | .wake => enter (.rx .wake) t s
  | .send => enter (.rx .confirm) t s
  | .watermark => enter (.rx .watermarkAck) t { s with seq := .headerSent }
  | .escape => attemptDone c t .noResult s
  | .headerAck =>
    pageLoop c 0 { t with offset := le16 t.rxbuf 2 } { s with seq := .headerReceived, pages := le16 t.rxbuf 0 }
  | .pageAck =>
    let x := walkPage c t.rxbuf s.pidx.toNat t.offset.toNat (s.rev, t.records)
    pageLoop c (s.pidx.toNat + 1) { t with records := x.2 } { s with rev := x.1 }

/-- What follows the answer of an Rx. A timeout is checked before the content (60_exceptions.md R351). -/
def afterRx (c : Config) (t : Task) (p : RxPoint) (a : RxAnswer) (s : State) : State :=
  match p with
  | .wake =>
    if a = .data wakeAck then wakeDone c t .ok s
    else if t.kw < c.retries then enter (.tx .wake) { t with kw := t.kw + 1 } s
    else wakeDone c t .unreachable s
  | .confirm =>
    match a with
    | .timeout => commandDone c t .unreachable s
    | .data bs =>
      if bs = confirmation t.op then commandDone c t .ok s
      else if t.ks < c.retries then enter (.tx .send) { t with ks := t.ks + 1 } s
      else commandDone c t (unconfirmed c.unconfirmedPolicy) s
  | .watermarkAck =>
    match a with
    | .timeout => attemptDone c t .unreachable s
    | .data bs => if bs = ackToken then enter (.rx .header) t s else attemptDone c t .noResult s
  | .header =>
    match a with
    | .timeout => attemptDone c t .unreachable s
    | .data bs =>
      let k := checkFrame c bs t
      if k.1 then enter (.tx .headerAck) k.2 s else enter (.tx .escape) k.2 s
  | .page =>
    match a with
    | .timeout => attemptDone c t .unreachable s
    | .data bs =>
      let k := checkFrame c bs t
      if k.1 then enter (.tx .pageAck) k.2 s else enter (.tx .escape) k.2 s
  | .snapshot =>
    match a with
    | .timeout => finish .deviceUnreachable s
    | .data bs =>
      let k := checkFrame c bs t
      if k.1 then finish .ok { s with result := .snap (decodeSnap c bs 0) }
      else if t.kr < c.retries then startPause .snapshot k.2 s
      else finish .deviceUnreachable s

/-- What follows a retry pause (43_download.md R281, R286). -/
def afterPause (t : Task) (p : PausePoint) (s : State) : State :=
  match p with
  | .attempt => startAttempt { t with kd := t.kd + 1 } s
  | .snapshot => startSnapshotRead { t with kr := t.kr + 1 } s

/-- The suspension point of the running operation ends and the sequencer works to the next one; without a running operation
nothing happens. -/
def advance (c : Config) (s : State) : State :=
  match s.task with
  | none => s
  | some t =>
    match t.point with
    | .tx p => afterTx c t p (transmit (txBytesOf c s t p) s)
    | .rx p =>
      let q := rxRequest c t p
      let r := receive q.1 q.2 s
      afterRx c (keepAnswer q.1 q.2 r.1 t) p r.1 r.2
    | .pause p => afterPause t p s

/-! ## Cancellation (44_control.md R322) -/

/-- ABORT_REQ = 1 while the operation waits in an Rx or a Pause: the operation ends at once. A Tx that has started completes first. -/
def cancelDue (s : State) : Bool :=
  match s.task with
  | none => false
  | some t =>
    match t.point with
    | .tx _ => false
    | .rx _ => s.abortReq
    | .pause _ => s.abortReq

/-- The waiting Rx or Pause is abandoned and the operation finishes with CANCELLED; nothing is transmitted (44_control.md R322,
60_exceptions.md R347). The channel has seen the abandoned Rx without an answer (log 9). -/
def cancel (c : Config) (s : State) : State :=
  match s.task with
  | none => s
  | some t =>
    match t.point with
    | .tx _ => s
    | .rx p =>
      finish .cancelled
        { s with rxLog := s.rxLog ++ [{ n := (rxRequest c t p).1, timeout := (rxRequest c t p).2, answer := none }] }
    | .pause _ => finish .cancelled s

/-- The hidden state of a serial operation as it starts (10_state.md R45). kw and POLL_ARC's kd start at 1 with their loops
(42_handshake.md R231, 43_download.md R281). The model's choice, where the spec gives no value yet: 1 for ks and kr before their
loops and for kd of an operation without that loop, 0 for the header's offset before a header, CRC_INIT for the private accumulator
and no bytes in the receive buffer (log 11). -/
def newTask (c : Config) (op : SerialOp) : Task where
  op := op
  point := .tx .wake
  kw := 1
  ks := 1
  kr := 1
  kd := 1
  offset := 0
  records := []
  pcrc := c.crcInit
  rxbuf := []
  received := []

end Sys2Proof.Machine
end

