-- ==== Sys2Proof/Machine/Control.lean ====
section
/-! DEFINITION. The control operations (44_control.md R320, R322). A meaning is the operation's own rule; acceptance of the
command (CMD, LASTOP, DONE, OVR; 10_state.md R32) stands around it in Command.lean (log 17). -/

namespace Sys2Proof.Machine

/-- NOP (R320). -/
def execNop (s : State) : Answer := .next (finish .ok s)

/-- ABORT (R322): while idle an ordinary command that finishes with OK; while an operation runs it only sets ABORT_REQ, and the
sequencer acts on it at its next suspension point, at once when it waits in an Rx or a Pause (`cancelDue`, log 5). -/
def execAbort (s : State) : Answer :=
  if s.busy then .next { s with abortReq := true } else .next (finish .ok s)

end Sys2Proof.Machine
end

