-- ==== Sys2Proof/Machine/CrcFamily.lean ====
section
/-! DEFINITION. The CRC family (40_crc.md R133 to R138). -/

namespace Sys2Proof.Machine

/-- CRC_CLR (R133). -/
def execCrcClr (s : State) : Answer := .next (finish .ok { s with acc := cfg.crcInit })

/-- CRC_BYTE b (R134). -/
def execCrcByte (b : Nat) (s : State) : Answer :=
  .next (finish .ok { s with acc := crcStep cfg.poly s.acc (BitVec.ofNat 8 b) })

/-- CRC_BUF (R135). -/
def execCrcBuf (s : State) : Answer :=
  withBytes s 0 s.lenNat fun bs => .next (finish .ok { s with acc := crc cfg bs })

/-- VERIFY (R137). -/
def execVerify (s : State) : Answer :=
  withBytes s 0 s.lenNat fun bs =>
    .next (finish .ok { s with acc := crc cfg bs, valid := validFlag s.lenNat (crc cfg bs) })

/-- CRC_APPEND (R138): the overflow check comes first and changes no state but the completion (R348). -/
def execCrcAppend (s : State) : Answer :=
  if s.lenNat + 2 > cfg.fbSize then .next (finish .bufOverflow s)
  else
    withBytes s 0 s.lenNat fun bs =>
      .next (finish .ok
        { s with
          acc := crc cfg bs
          fb := memWrite s.fb s.lenNat (be16bytes (crc cfg bs))
          len := BitVec.ofNat 10 (s.lenNat + 2) })

end Sys2Proof.Machine
end

