-- ==== Sys2Proof/Machine/DecodeFamily.lean ====
section
/-! DEFINITION. The decode family (41_record_codec.md R186 to R192). -/

namespace Sys2Proof.Machine

/-- The frame of every decode operation (R186): RESULT is cleared first, a layout of `size` bytes at `p` that does not end
within LEN gives DECODE_FAIL before anything else is read, and otherwise `k` goes on with the layout's bytes. -/
def decodeOp (s : State) (p size : Nat) (k : List Byte → State → State) : Answer :=
  let s := { s with result := .none }
  if fits p size s.lenNat then withBytes s p size fun bs => .next (finish .ok (k bs s))
  else .next (finish .decodeFail s)

/-- DEC_SNAP p (R187). -/
def execDecSnap (p : Nat) (s : State) : Answer :=
  decodeOp s p cfg.snapSize fun bs s => { s with result := .snap (decodeSnap cfg bs 0) }

/-- DEC_ARCA p (R188): REV is neither read nor written. -/
def execDecArca (p : Nat) (s : State) : Answer :=
  decodeOp s p cfg.arcSize fun bs s => { s with result := .arc (decodeArc cfg .a bs 0) }

/-- DEC_ARCB p (R189): REV is neither read nor written. -/
def execDecArcb (p : Nat) (s : State) : Answer :=
  decodeOp s p cfg.arcSize fun bs s => { s with result := .arc (decodeArc cfg .b bs 0) }

/-- DEC_ARC p (R190): the probe sets REV only if it was UNKNOWN, then the record is decoded under REV. -/
def execDecArc (p : Nat) (s : State) : Answer :=
  decodeOp s p cfg.arcSize fun bs s =>
    let rev := probe s.rev (u8 bs cfg.discOffset)
    { s with rev := rev, result := .arc (decodeArc cfg rev.layout bs 0) }

/-- DEC_HDR p (R191): PROG is not written. -/
def execDecHdr (p : Nat) (s : State) : Answer :=
  decodeOp s p cfg.hdrSize fun bs s => { s with result := decodeHdr bs 0 }

/-- DEC_PAGE p (R192). -/
def execDecPage (p : Nat) (s : State) : Answer :=
  decodeOp s p cfg.pageSize fun bs s => { s with result := decodePage cfg bs 0 }

end Sys2Proof.Machine
end

