-- ==== Sys2Proof/Machine/Download.lean ====
section
/-! DEFINITION. The download and poll operations (43_download.md R279, R281, R286); as in Handshake.lean, a meaning is the first
atomic step and `advance` runs the rest. -/

namespace Sys2Proof.Machine

/-- POLL_RT (R286): RESULT is cleared, then `Command("LOOP", [1], expectOK = false)`. -/
def execPollRt (s : State) : Answer := .next (startWake (newTask cfg .pollRt) { s with result := .none })

/-- DOWNLOAD (R279): RLIST and SEL are cleared, then one download attempt. -/
def execDownload (s : State) : Answer := .next (startAttempt (newTask cfg .download) (clearSel { s with rlist := [] }))

/-- POLL_ARC (R281): RESULT, RLIST and SEL are cleared, then the first download attempt. -/
def execPollArc (s : State) : Answer :=
  .next (startAttempt (newTask cfg .pollArc) (clearSel { s with result := .none, rlist := [] }))

end Sys2Proof.Machine
end

