-- ==== Sys2Proof/Machine/Handshake.lean ====
section
/-! DEFINITION. The handshake operations (42_handshake.md R240 to R242). A serial operation's meaning is its first atomic step,
from acceptance to the start of its first Tx; `advance` runs the rest, one suspension point a step (20_memory.md R85). -/

namespace Sys2Proof.Machine

/-- WAKE (R240): `BUSY <- 1`, then `Wake()`. -/
def execWake (s : State) : Answer := .next (startWake (newTask cfg .wake) s)

/-- SETPER n (R241): `BUSY <- 1`, then `Command("SETPER", [n], expectOK = true)`. -/
def execSetper (n : Nat) (s : State) : Answer := .next (startWake (newTask cfg (.setper n)) s)

/-- CLRLOG (R242): `BUSY <- 1`, then `Command("CLRLOG", [], expectOK = false)`. -/
def execClrlog (s : State) : Answer := .next (startWake (newTask cfg .clrlog) s)

end Sys2Proof.Machine
end

