-- ==== Sys2Proof/Machine/Dispatch.lean ====
section
/-! DEFINITION. One arm per operation of the opcode map (30_encoding.md R102), each one call of its meaning. -/

namespace Sys2Proof.Machine

def exec (i : Instr) (s : State) : Host.Outcome State Fault Refusal :=
  match i with
  -- control (44_control.md)
  | .nop => Sys2Proof.Machine.execNop s
  | .abort => Sys2Proof.Machine.execAbort s
  -- CRC family (40_crc.md)
  | .crcClr => Sys2Proof.Machine.execCrcClr s
  | .crcByte b => Sys2Proof.Machine.execCrcByte b s
  | .crcBuf => Sys2Proof.Machine.execCrcBuf s
  | .verify => Sys2Proof.Machine.execVerify s
  | .crcAppend => Sys2Proof.Machine.execCrcAppend s
  -- decode family (41_record_codec.md)
  | .decSnap p => Sys2Proof.Machine.execDecSnap p s
  | .decArca p => Sys2Proof.Machine.execDecArca p s
  | .decArcb p => Sys2Proof.Machine.execDecArcb p s
  | .decArc p => Sys2Proof.Machine.execDecArc p s
  | .decHdr p => Sys2Proof.Machine.execDecHdr p s
  | .decPage p => Sys2Proof.Machine.execDecPage p s
  -- handshake (42_handshake.md)
  | .wake => Sys2Proof.Machine.execWake s
  | .setper n => Sys2Proof.Machine.execSetper n s
  | .clrlog => Sys2Proof.Machine.execClrlog s
  -- download and polls (43_download.md)
  | .pollRt => Sys2Proof.Machine.execPollRt s
  | .download => Sys2Proof.Machine.execDownload s
  | .pollArc => Sys2Proof.Machine.execPollArc s

end Sys2Proof.Machine
end

