-- ==== Sys2Proof/Machine/Command.lean ====
section
/-! DEFINITION. A host write of a word to CMD (10_state.md R32, 30_encoding.md R103, 44_control.md R322). -/

namespace Sys2Proof.Machine

/-- While idle the word is accepted and its operation runs; a reserved OP finishes with ILLEGAL_OP and does nothing else
(30_encoding.md R103, 60_exceptions.md R346). While BUSY = 1 no word is accepted: ABORT acts on the running operation, any other
word is lost (10_state.md R32). -/
def writeCmd (w : Word) (s : State) : Answer :=
  match s.busy, decodeWord w with
  | false, .ok i => exec i (accept w s)
  | false, .error _ => .next (finish .illegalOp (accept w s))
  | true, .ok .abort => exec .abort s
  | true, _ => .next (loseWrite s)

end Sys2Proof.Machine
end

