-- ==== Sys2Proof/Machine/HostAccess.lean ====
section
/-! DEFINITION. Host accesses: the address map, register and frame buffer reads and writes (10_state.md R31, 20_memory.md R70 to
R73, 44_control.md R321, R324). -/

namespace Sys2Proof.Machine

/-! ## The address map (20_memory.md R71) -/

/-- The registers (10_state.md R31). -/
inductive Reg
  | cmd | status | crc | fblen | wm | rlcnt | sel | prog
  deriving DecidableEq, Repr

/-- The offset of a register (10_state.md R31). -/
def Reg.offset : Reg → Nat
  | .cmd => 0x000
  | .status => 0x004
  | .crc => 0x008
  | .fblen => 0x00C
  | .wm => 0x010
  | .rlcnt => 0x014
  | .sel => 0x018
  | .prog => 0x01C

/-- What a host access reaches. -/
inductive Target
  | reg (r : Reg)      -- an aligned register
  | fb (i : Nat)       -- byte i of the frame buffer
  | reserved           -- a reserved address
  | outside            -- an access outside the interface (20_memory.md R72)
  deriving DecidableEq, Repr

/-- The bytes of an access width. -/
def Width.bytes : Width → Nat
  | .byte => 1
  | .half => 2
  | .word => 4

/-- The register at an aligned offset below 0x020. -/
def regAt (a : Nat) : Option Reg :=
  match a with
  | 0x000 => some .cmd
  | 0x004 => some .status
  | 0x008 => some .crc
  | 0x00C => some .fblen
  | 0x010 => some .wm
  | 0x014 => some .rlcnt
  | 0x018 => some .sel
  | 0x01C => some .prog
  | _ => none

/-- Do `n` bytes at `a` lie in the reserved ranges 0x020 to 0x0FF or 0x300 to 0xFFF (20_memory.md R71)? -/
def inReserved (a n : Nat) : Bool :=
  (decide (0x020 ≤ a) && decide (a + n ≤ 0x100)) || (decide (0x300 ≤ a) && decide (a + n ≤ 0x1000))

/-- What an access of width `w` at address `a` reaches: registers as aligned words, FB as single bytes, a reserved range at any
width that stays inside it (log 8), anything else is outside the interface (20_memory.md R71, R72). -/
def locate (w : Width) (a : BitVec 12) : Target :=
  let a := a.toNat
  if inReserved a w.bytes then .reserved
  else if decide (0x100 ≤ a) && decide (a < 0x300) then
    match w with
    | .byte => .fb (a - 0x100)
    | .half => .outside
    | .word => .outside
  else
    match w, regAt a with
    | .word, some r => .reg r
    | _, _ => .outside

/-! ## Reads (44_control.md R324) -/

/-- The current value of a register (10_state.md R31 to R41). -/
def regWord (s : State) : Reg → Word
  | .cmd => s.cmd
  | .status => statusWord s
  | .crc => crcWord s
  | .fblen => fblenWord s
  | .wm => wmWord s
  | .rlcnt => rlcntWord s
  | .sel => selWord s
  | .prog => progWord s

/-- The host receives a read value. -/
def deliver (d : ReadData) (s : State) : State := { s with rdata := some d }

/-- The host receives a free value: one draw is used up (44_control.md R324; log 3). -/
def deliverDraw (d : ReadData) (s : State) : State := { s with rdata := some d, draws := s.draws + 1 }

/-- A read of a register: STATUS is current at any time, any other is a draw while BUSY = 1 (44_control.md R324). -/
def readReg (r : Reg) (s : State) : State :=
  if r = .status ∨ s.busy = false then deliver (.word (regWord s r)) s
  else deliverDraw (.word (Config.busyWord s.draws)) s

/-- A byte read of FB: a draw while BUSY = 1 (20_memory.md R73), a fault on a byte nothing has written (R390). -/
def readFb (i : Nat) (s : State) : Answer :=
  if s.busy then .next (deliverDraw (.byte (Config.busyByte s.draws)) s)
  else
    match Memory.read s.fb i with
    | some b => .next (deliver (.byte b) s)
    | none => .fault .unwrittenFb

/-! ## Writes (44_control.md R321) -/

/-- `WR FBLEN, v`: a legal length is stored, any other leaves LEN unchanged (10_state.md R37). -/
def writeFblen (v : Word) (s : State) : State :=
  if (v.extractLsb' 0 10).toNat ≤ cfg.fbSize then { s with len := v.extractLsb' 0 10 } else s

/-- `WR WM, v`: no ordering check (10_state.md R35, 44_control.md R321). -/
def writeWm (v : Word) (s : State) : State :=
  { s with wmDate := v.extractLsb' 16 16, wmTime := v.extractLsb' 0 16 }

/-- A write to a read-only register or a reserved address stores nothing; while BUSY = 1 it sets OVR like every other write but
ABORT (44_control.md R321, 92_eei_decisions.md D28; log 7). -/
def ignoreWrite (s : State) : State := if s.busy then loseWrite s else s

/-- A register write. FBLEN and WM writes are lost while BUSY = 1 (10_state.md R35, R37); the other registers but CMD are
read-only (44_control.md R321). -/
def writeReg (r : Reg) (v : Word) (s : State) : Answer :=
  match r with
  | .cmd => writeCmd v s
  | .fblen => .next (if s.busy then loseWrite s else writeFblen v s)
  | .wm => .next (if s.busy then loseWrite s else writeWm v s)
  | .status => .next (ignoreWrite s)
  | .crc => .next (ignoreWrite s)
  | .rlcnt => .next (ignoreWrite s)
  | .sel => .next (ignoreWrite s)
  | .prog => .next (ignoreWrite s)

/-- A byte write of FB, lost while BUSY = 1 (20_memory.md R73). -/
def writeFb (i : Nat) (v : Byte) (s : State) : State :=
  if s.busy then loseWrite s else { s with fb := Memory.write s.fb i v }

/-! ## One access -/

/-- One host access (20_memory.md R70 to R73, 44_control.md R321, R324). -/
def hostAccess (a : Access) (s : State) : Answer :=
  match a with
  | .read w addr =>
    match locate w addr with
    | .reg r => .next (readReg r s)
    | .fb i => readFb i s
    | .reserved => .next (deliver (match w with
        | .byte => .byte 0
        | .half => .word 0
        | .word => .word 0) s)
    | .outside => .refused .outsideInterface
  | .write w addr v =>
    match locate w addr with
    | .reg r => writeReg r v s
    | .fb i => .next (writeFb i (v.extractLsb' 0 8) s)
    | .reserved => .next (ignoreWrite s)
    | .outside => .refused .outsideInterface
  | .readResult =>
    .next (if s.busy then deliverDraw (.result (Config.busyResult s.draws)) s else deliver (.result s.result) s)
  | .readRlist =>
    .next (if s.busy then deliverDraw (.rlist (Config.busyRlist s.draws)) s else deliver (.rlist s.rlist) s)

/-- Reset (70_reset_and_hazards.md R380, R381): every piece of the block's state takes its reset value and the running operation
is abandoned without `finish`. What the outside holds (inputs, answers, the draw count, the last read value) is not the block's
(log 16). -/
def resetBlock (s : State) : State :=
  { State.reset with inputs := s.inputs, answers := s.answers, draws := s.draws, rdata := s.rdata }

/-- The host waits for completion: it reads STATUS until BUSY = 0 and DONE = 1 (30_encoding.md R105 WAITDONE; log 18). While the
operation runs, the sequencer moves and the host keeps waiting; then the host holds STATUS and goes on with `rest`. -/
def waitDone (rest : List Input) (s : State) : State :=
  if s.busy then advance cfg s
  else if s.done then deliver (.word (statusWord s)) { s with inputs := rest }
  else s

end Sys2Proof.Machine
end

