-- ==== Sys2Proof/Machine/Step.lean ====
section
/-! DEFINITION. One step of the machine (10_state.md R30, 20_memory.md R85; log 1). -/

namespace Sys2Proof.Machine

/-- One step. A cancellation that is due comes first (44_control.md R322 "at once"; log 5). Otherwise the first input decides who
moves: the host makes one access, the sequencer's suspension point ends, the host waits for completion, or reset arrives. With no
input left a running operation goes on, and an idle block waits for a host command (70_reset_and_hazards.md R380). -/
def step (s : State) : Host.Outcome State Fault Refusal :=
  if cancelDue s then .next (cancel cfg s)
  else
    match s.inputs with
    | [] => .next (advance cfg s)
    | .host a :: rest => hostAccess a { s with inputs := rest }
    | .proceed :: rest => .next (advance cfg { s with inputs := rest })
    | .waitDone :: rest => .next (waitDone rest s)
    | .reset :: rest => .next (resetBlock { s with inputs := rest })

/-- `s` with the instruction as the host's next access: a word written to CMD at address 0x000 (10_state.md R32). The block
fetches nothing (20_memory.md R91), so this is what loading a program is (log 1). -/
def State.withFetchWord (s : State) (nbits w : Nat) : State :=
  { s with inputs := .host (.write .word 0x000 (tableWord nbits w)) :: s.inputs }

end Sys2Proof.Machine
end

