-- ==== Sys2Proof/Machine/Assembler.lean ====
section
/-! DEFINITION. The host programs of 30_encoding.md R105: each statement and pseudo-instruction as the host accesses it stands
for. Nothing is fetched (20_memory.md R91): a host program is a list of inputs (log 1, log 18). -/

namespace Sys2Proof.Machine

/-- The registers a host program may write with `WR` (R105). -/
inductive WrReg
  | fblen | wm
  deriving DecidableEq, Repr

/-- A statement of a host program (R105). -/
inductive HostStmt
  | op (i : Instr)                        -- MNEMONIC, MNEMONIC a8, MNEMONIC a16
  | wr (r : WrReg) (v : Word)             -- WR REG, value
  | rd (r : Reg)                          -- RD REG
  | wrfb (off : Nat) (bs : List Byte)     -- WRFB off, b0 ... bn
  | waitDone                              -- WAITDONE
  | crcseq (bs : List Byte)               -- CRCSEQ b0 ... bn
  | loadframe (bs : List Byte)            -- LOADFRAME b0 ... bn
  | setwm (date time : Half)              -- SETWM date, time
  deriving DecidableEq, Repr

/-- The host address of a register. -/
def regAddr (r : Reg) : BitVec 12 := BitVec.ofNat 12 r.offset

/-- The host address of FB[i] (20_memory.md R70). FB ends at 511 and the spec gives no address to a byte past it: (0x100 + i) mod
4096 there is the model's choice (log 22). -/
def fbAddr (i : Nat) : BitVec 12 := BitVec.ofNat 12 (0x100 + i)

/-- A command: its word written to CMD (R105). -/
def inputsOfOp (i : Instr) : Input := .host (.write .word (regAddr .cmd) (encode i))

/-- `WR REG, value` (R105). -/
def inputsOfWr (r : WrReg) (v : Word) : Input :=
  match r with
  | .fblen => .host (.write .word (regAddr .fblen) v)
  | .wm => .host (.write .word (regAddr .wm) v)

/-- `WRFB off, bs`: the bytes at FB[off], FB[off+1], ... (R105). What becomes of bytes past FB[511] is the model's choice: each is
written to the address `fbAddr` gives, with the effect a host write there has (log 22). -/
def inputsOfWrfb (off : Nat) : List Byte → List Input
  | [] => []
  | b :: bs => .host (.write .byte (fbAddr off) (b.setWidth 32)) :: inputsOfWrfb (off + 1) bs

/-- The host accesses of a statement, pseudo-instructions expanded as R105 gives them. -/
def expand : HostStmt → List Input
  | .op i => [inputsOfOp i]
  | .wr r v => [inputsOfWr r v]
  | .rd r => [.host (.read .word (regAddr r))]
  | .wrfb off bs => inputsOfWrfb off bs
  | .waitDone => [.waitDone]
  | .crcseq bs => inputsOfOp .crcClr :: bs.map fun b => inputsOfOp (.crcByte b.toNat)
  | .loadframe bs => inputsOfWrfb 0 bs ++ [inputsOfWr .fblen (BitVec.ofNat 32 bs.length)]
  | .setwm date time => [inputsOfWr .wm ((date ++ time : BitVec (16 + 16)))]

/-- The inputs of a host program. -/
def assemble (p : List HostStmt) : List Input := (p.map expand).flatten

end Sys2Proof.Machine
end

