-- ==== Sys2Proof/Machine/Procedures.lean ====
section
/-! DEFINITION. The procedures of the serial operations as the spec writes them, loops and all, each run to its end in one go
against the device's answers (42_handshake.md R231 to R242, 43_download.md R270 to R288). The machine itself runs them cut at
their suspension points (Sequencer.lean); a claim says that the two agree. No ABORT falls into a run written so. -/

namespace Sys2Proof.Machine

/-- `finish(code)` of a serial operation, seen at its end (60_exceptions.md R345). -/
def complete (code : Code) (s : State) : State :=
  { s with code := code, done := true, seq := if code = .ok then .done else .aborted, abortReq := false, task := none }

/-- The loop `for kw in ..` of `Wake()`, `n` attempts left (42_handshake.md R231). -/
def wakeLoop (c : Config) : (n : Nat) → State → CmdResult × State
  | 0, s => (.unreachable, s)
  | n + 1, s =>
    let r := receive 2 c.tAck (transmit wakeReq s)
    if r.1 = .data wakeAck then (.ok, r.2) else wakeLoop c n r.2

/-- `Wake()` (42_handshake.md R231). -/
def wakeProc (c : Config) (s : State) : CmdResult × State := wakeLoop c c.retries { s with seq := .wake }

/-- The loop `for ks in ..` of `SendConfirm`, `n` attempts left (42_handshake.md R233). -/
def sendLoop (c : Config) (frame want : List Byte) (timeout : Millis) : (n : Nat) → State → CmdResult × State
  | 0, s => (unconfirmed c.unconfirmedPolicy, s)
  | n + 1, s =>
    let r := receive want.length timeout (transmit frame s)
    match r.1 with
    | .timeout => (.unreachable, r.2)
    | .data bs => if bs = want then (.ok, r.2) else sendLoop c frame want timeout n r.2

/-- `Command(text, args, expectOK)` (42_handshake.md R236, R233). -/
def commandProc (c : Config) (text : List Byte) (args : List Nat) (expectOK : Bool) (s : State) : CmdResult × State :=
  let w := wakeProc c s
  match w.1 with
  | .unreachable => (.unreachable, w.2)
  | .ok =>
    if expectOK then sendLoop c (cmdframe text args) okToken c.tOk c.retries { w.2 with seq := .send }
    else sendLoop c (cmdframe text args) ackToken c.tAck c.retries { w.2 with seq := .send }

/-- The loop `for i in ..` over the pages, `n` of them left, from index `i` on (43_download.md R275). -/
def pagesLoop (c : Config) (offset : Nat) : (n i : Nat) → (acc : List ArcEntry) → State → Attempt × State
  | 0, _, acc, s => (.list acc, s)
  | n + 1, i, acc, s =>
    let r := receive c.pageSize c.tData { s with seq := .pageLoop, pidx := BitVec.ofNat 16 i }
    match r.1 with
    | .timeout => (.unreachable, r.2)
    | .data f =>
      if verify c f then
        let x := walkPage c f i offset (r.2.rev, acc)
        pagesLoop c offset n (i + 1) x.2 { transmit ackToken r.2 with rev := x.1 }
      else (.noResult, transmit escToken r.2)

/-- `DownloadAttempt()` (43_download.md R270 to R278). -/
def attemptProc (c : Config) (s : State) : Attempt × State :=
  let w := commandProc c textDmpaft [] false (clearProg s)
  match w.1 with
  | .unreachable => (.unreachable, w.2)
  | .ok =>
    let r := receive 1 c.tAck { transmit (watermarkFrame c w.2.wmDate w.2.wmTime) w.2 with seq := .headerSent }
    match r.1 with
    | .timeout => (.unreachable, r.2)
    | .data bs =>
      if bs = ackToken then
        let h := receive c.hdrSize c.tData r.2
        match h.1 with
        | .timeout => (.unreachable, h.2)
        | .data hb =>
          if verify c hb then
            pagesLoop c (le16 hb 2).toNat (le16 hb 0).toNat 0 []
              { transmit ackToken h.2 with seq := .headerReceived, pages := le16 hb 0 }
          else (.noResult, transmit escToken h.2)
      else (.noResult, r.2)

/-- The loop `for kr in ..` of POLL_RT, `n + 1` reads left (43_download.md R286). -/
def snapshotLoop (c : Config) : (n : Nat) → State → State
  | 0, s =>
    let r := receive c.snapSize c.tData { s with seq := .dataRead }
    match r.1 with
    | .timeout => complete .deviceUnreachable r.2
    | .data f =>
      if verify c f then complete .ok { r.2 with result := .snap (decodeSnap c f 0) } else complete .deviceUnreachable r.2
  | n + 1, s =>
    let r := receive c.snapSize c.tData { s with seq := .dataRead }
    match r.1 with
    | .timeout => complete .deviceUnreachable r.2
    | .data f =>
      if verify c f then complete .ok { r.2 with result := .snap (decodeSnap c f 0) } else snapshotLoop c n r.2

/-- POLL_RT (43_download.md R286). -/
def pollRtProc (c : Config) (s : State) : State :=
  let w := commandProc c textLoop [1] false { s with result := .none }
  match w.1 with
  | .unreachable => complete .deviceUnreachable w.2
  | .ok => snapshotLoop c (c.retries - 1) w.2

/-- DOWNLOAD (43_download.md R279). -/
def downloadProc (c : Config) (s : State) : State :=
  let a := attemptProc c (clearSel { s with rlist := [] })
  match a.1 with
  | .list l => complete .ok { a.2 with rlist := l }
  | .noResult => complete .noResult a.2
  | .unreachable => complete .deviceUnreachable a.2

/-- The loop `for kd in ..` of POLL_ARC, `n + 1` attempts left (43_download.md R281). -/
def attemptsLoop (c : Config) : (n : Nat) → State → State
  | 0, s =>
    let a := attemptProc c s
    match a.1 with
    | .list l => complete .ok (selectNewest l { a.2 with rlist := l })
    | .noResult => complete .noNewRecords a.2
    | .unreachable => complete .deviceUnreachable a.2
  | n + 1, s =>
    let a := attemptProc c s
    match a.1 with
    | .list l => complete .ok (selectNewest l { a.2 with rlist := l })
    | .noResult => attemptsLoop c n a.2
    | .unreachable => complete .deviceUnreachable a.2

/-- POLL_ARC (43_download.md R281). -/
def pollArcProc (c : Config) (s : State) : State :=
  attemptsLoop c (c.retries - 1) (clearSel { s with result := .none, rlist := [] })

/-- A serial operation from its acceptance to its `finish` (42_handshake.md R240 to R242, 43_download.md R279, R281, R286). -/
def operationProc (c : Config) (op : SerialOp) (s : State) : State :=
  match op with
  | .wake => complete (wakeProc c s).1.code (wakeProc c s).2
  | .setper n => complete (commandProc c textSetper [n] true s).1.code (commandProc c textSetper [n] true s).2
  | .clrlog => complete (commandProc c textClrlog [] false s).1.code (commandProc c textClrlog [] false s).2
  | .pollRt => pollRtProc c s
  | .download => downloadProc c s
  | .pollArc => pollArcProc c s

end Sys2Proof.Machine
end

