-- ==== Sys2Proof/Safety.lean ====
section
/-! DEFINITION. What claims about the block are stated in: the invariant of its runs, and what a layout parameter must satisfy. -/

namespace Sys2Proof.Machine

/-! ## Parameters (93_implementation_defined.md, last paragraph) -/

/-- What a choice of layouts and sizes must keep for the handshake, download, sentinel and watermark rules to hold: a CRC has
the 16 bits of `Half` (00_scope.md R7), the layouts fill their sizes (00_scope.md R7, 41_record_codec.md R160), the snapshot ends
with its CRC (20_memory.md R76), the date-stamp and the time-stamp are the first two fields of an archive record
(41_record_codec.md R164), the discriminator lies inside the record (R167), five records fill the blob (R169). -/
structure LayoutsOk (c : Config) : Prop where
  crc_width : c.crcWidth = 16
  snap_size : c.layoutSnap.size = c.snapSize
  arc_a_size : c.layoutA.size = c.arcSize
  arc_b_size : c.layoutB.size = c.arcSize
  snap_crc : c.layoutSnap.getLast? = some ⟨.crc, .crc16, .raw⟩
  stamps_first : c.layoutPrefix.take 2 = [⟨.dateStamp, .u16, .adate⟩, ⟨.timeStamp, .u16, .atime⟩]
  disc_inside : c.discOffset < c.arcSize
  blob_filled : c.blobSize = c.slots * c.arcSize
  page_filled : c.pageSize = 1 + c.blobSize + c.padSize + 2

/-! ## The invariant of every run -/

/-- The flag value a decoded record's revision stands for (10_state.md R36). -/
def flagOf : ArcRev → Rev
  | .a => .a
  | .b => .b

/-- The OP value of a serial operation (30_encoding.md R102). -/
def SerialOp.opcode : SerialOp → Byte
  | .wake => 0x20
  | .setper _ => 0x21
  | .clrlog => 0x22
  | .pollRt => 0x23
  | .download => 0x24
  | .pollArc => 0x25

/-- Does the operation run download attempts (43_download.md R279, R281)? -/
def SerialOp.downloads : SerialOp → Bool
  | .download => true
  | .pollArc => true
  | .wake => false
  | .setper _ => false
  | .clrlog => false
  | .pollRt => false

/-- The suspension points an operation has. -/
def pointOfOp (op : SerialOp) : Point → Bool
  | .tx .wake => true
  | .rx .wake => true
  | .tx .send => op != .wake
  | .rx .confirm => op != .wake
  | .tx .watermark => op.downloads
  | .tx .escape => op.downloads
  | .tx .headerAck => op.downloads
  | .tx .pageAck => op.downloads
  | .rx .watermarkAck => op.downloads
  | .rx .header => op.downloads
  | .rx .page => op.downloads
  | .rx .snapshot => op == .pollRt
  | .pause .attempt => op == .pollArc
  | .pause .snapshot => op == .pollRt

/-- The phase SEQ shows at a suspension point (10_state.md R41, R42). The escape byte follows a header or a page. -/
def phaseAtPoint (seq : Phase) : Point → Bool
  | .tx .wake => seq == .wake
  | .rx .wake => seq == .wake
  | .tx .send => seq == .send
  | .rx .confirm => seq == .send
  | .tx .watermark => seq == .send
  | .rx .watermarkAck => seq == .headerSent
  | .rx .header => seq == .headerSent
  | .tx .headerAck => seq == .headerSent
  | .tx .escape => seq == .headerSent || seq == .pageLoop
  | .rx .page => seq == .pageLoop
  | .tx .pageAck => seq == .pageLoop
  | .rx .snapshot => seq == .dataRead
  | .pause .attempt => seq == .pause
  | .pause .snapshot => seq == .pause

/-- The frame buffer keeps its canonical form inside FB[0..512), and LEN is a legal length (10_state.md R37). -/
def FbInv (s : State) : Prop :=
  Memory.wf s.fb = true ∧ (∀ x ∈ s.fb, x.1 < cfg.fbSize) ∧ s.lenNat ≤ cfg.fbSize

/-- RLIST holds at most REC_CAP records, all of the session's revision (10_state.md R36, R38, R44), and SEL points into it or is
0 (R39). -/
def ResultInv (s : State) : Prop :=
  s.rlist.length ≤ cfg.recCap ∧ (∀ e ∈ s.rlist, s.rev = flagOf e.rev) ∧
  (if s.selValid then s.selIndex.toNat < s.rlist.length else s.selIndex = 0)

/-- While idle: no abort is requested (10_state.md R45) and SEQ is IDLE, DONE or ABORTED (R41). -/
def IdleInv (s : State) : Prop :=
  s.task = none → s.abortReq = false ∧ (s.seq = .idle ∨ s.seq = .done ∨ s.seq = .aborted)

/-- The records collected so far: none before the first page, at most five a page read, all of the session's revision
(43_download.md R270, R276, R277); the page being read is one of the header's (R275). -/
def RecordsInv (s : State) (t : Task) : Prop :=
  (∀ e ∈ t.records, s.rev = flagOf e.rev) ∧
  match t.point with
  | .rx .page => s.pidx.toNat < s.pages.toNat ∧ t.records.length ≤ cfg.slots * s.pidx.toNat
  | .tx .pageAck => s.pidx.toNat < s.pages.toNat ∧ t.records.length ≤ cfg.slots * s.pidx.toNat
  | .tx .escape => True
  | .pause .attempt => True
  | _ => t.records = []

/-- Only a frame of the right size that verified is acknowledged (43_download.md R273, R275). -/
def AckInv (t : Task) : Prop :=
  match t.point with
  | .tx .headerAck => t.rxbuf.length = cfg.hdrSize ∧ verify cfg t.rxbuf = true
  | .tx .pageAck => t.rxbuf.length = cfg.pageSize ∧ verify cfg t.rxbuf = true
  | _ => True

/-- The loop counters stay within 1..RETRIES (10_state.md R45), and a retry pause precedes a further attempt only (43_download.md
R281, R286). -/
def CountersInv (t : Task) : Prop :=
  (1 ≤ t.kw ∧ t.kw ≤ cfg.retries) ∧ (1 ≤ t.ks ∧ t.ks ≤ cfg.retries) ∧ (1 ≤ t.kr ∧ t.kr ≤ cfg.retries) ∧
  (1 ≤ t.kd ∧ t.kd ≤ cfg.retries) ∧
  (t.point = .pause .attempt → t.kd < cfg.retries) ∧ (t.point = .pause .snapshot → t.kr < cfg.retries)

/-- While an operation runs: it stands at one of its points under that point's phase, DONE = 0 and LASTOP is its OP (10_state.md
R32, R33, R41); the results it writes at its end are clear (R43, R44; 43_download.md R279, R281, R286); its receive history is the
end of what the channel has seen (10_state.md R45, 20_memory.md R84). -/
def TaskInv (s : State) (t : Task) : Prop :=
  pointOfOp t.op t.point = true ∧ phaseAtPoint s.seq t.point = true ∧ s.done = false ∧ s.lastop = t.op.opcode ∧
  (t.op = .pollRt ∨ t.op = .pollArc → s.result = .none) ∧
  (t.op.downloads = true → s.rlist = [] ∧ s.selValid = false) ∧
  t.received <:+ s.rxLog ∧ CountersInv t ∧ RecordsInv s t ∧ AckInv t

/-- The invariant every step keeps. -/
structure Inv (s : State) : Prop where
  fb : FbInv s
  results : ResultInv s
  idle : IdleInv s
  task : ∀ t, s.task = some t → TaskInv s t

/-! ## Terms of claims -/

/-- A reference for the page loop (43_download.md R275 to R277): the walk of the pages from index `i` on. -/
def walkPages (c : Config) (offset : Nat) : Nat → List (List Byte) → Rev × List ArcEntry → Rev × List ArcEntry
  | _, [], x => x
  | i, f :: fs, x => walkPages c offset (i + 1) fs (walkPage c f i offset x)

/-- How a download attempt ends without a result: a wrong watermark acknowledgement (43_download.md R272), a header that fails
its CRC (R273), or a page that fails it after the good pages `fs` under the header `h` (R275). -/
inductive BadEnd
  | wrongAck (b : Byte)
  | badHeader (h : List Byte)
  | badPage (h : List Byte) (fs : List (List Byte)) (bad : List Byte)
  deriving DecidableEq, Repr

/-- The frames are such as the ending says. -/
def BadEnd.Ok (c : Config) : BadEnd → Prop
  | .wrongAck b => b ≠ 0x06
  | .badHeader h => h.length = 6 ∧ verify c h = false
  | .badPage h fs bad =>
    h.length = 6 ∧ verify c h = true ∧ fs.length < (le16 h 0).toNat ∧ (∀ f ∈ fs, f.length = 267 ∧ verify c f = true) ∧
      bad.length = 267 ∧ verify c bad = false

/-- The device's answers from the watermark acknowledgement on. -/
def BadEnd.answers : BadEnd → List RxAnswer
  | .wrongAck b => [.data [b]]
  | .badHeader h => [.data [0x06], .data h]
  | .badPage h fs bad => .data [0x06] :: .data h :: (fs.map .data ++ [.data bad])

/-- What the block transmits after the watermark frame. -/
def BadEnd.sent : BadEnd → List (List Byte)
  | .wrongAck _ => []
  | .badHeader _ => [[0x1B]]
  | .badPage _ fs _ => [0x06] :: (List.replicate fs.length [0x06] ++ [[0x1B]])

/-- The suspension points from the watermark acknowledgement on. -/
def BadEnd.steps : BadEnd → Nat
  | .wrongAck _ => 1
  | .badHeader _ => 3
  | .badPage _ fs _ => 2 * fs.length + 5

/-- PROG after the attempt: the page count of a verified header and the index of the page last read (10_state.md R40). -/
def BadEnd.prog : BadEnd → Half × Half
  | .wrongAck _ => (0, 0)
  | .badHeader _ => (0, 0)
  | .badPage h fs _ => (le16 h 0, BitVec.ofNat 16 fs.length)

/-- The revision flag after the attempt: the good pages may have fixed it (43_download.md R277). -/
def BadEnd.rev (c : Config) (r : Rev) : BadEnd → Rev
  | .wrongAck _ => r
  | .badHeader _ => r
  | .badPage h fs _ => (walkPages c (le16 h 2).toNat 0 fs (r, [])).1

/-- A download attempt without a result: failed wake attempts, wrong command confirmations, and its ending. -/
structure BadAttempt where
  badW : List RxAnswer
  badC : List Byte
  ending : BadEnd
  deriving DecidableEq, Repr

/-- At most two wake attempts and two confirmations fail, so that the attempt reaches its ending (42_handshake.md R231, R233). -/
def BadAttempt.Ok (c : Config) (a : BadAttempt) : Prop :=
  (∀ x ∈ a.badW, clampAnswer 2 x ≠ .data [0x0A, 0x0D]) ∧ a.badW.length ≤ 2 ∧
    (∀ b ∈ a.badC, b ≠ 0x06) ∧ a.badC.length ≤ 2 ∧ a.ending.Ok c

/-- The device's answers in the attempt. -/
def BadAttempt.answers (a : BadAttempt) : List RxAnswer :=
  a.badW ++ .data [0x0A, 0x0D] :: (a.badC.map (fun b => .data [b]) ++ .data [0x06] :: a.ending.answers)

/-- What the block transmits in the attempt, `wm` its watermark frame. -/
def BadAttempt.sent (wm : List Byte) (a : BadAttempt) : List (List Byte) :=
  List.replicate (a.badW.length + 1) [0x0A] ++
    List.replicate (a.badC.length + 1) [0x44, 0x4D, 0x50, 0x41, 0x46, 0x54, 0x20, 0x0A] ++ wm :: a.ending.sent

/-- The suspension points of the attempt. -/
def BadAttempt.steps (a : BadAttempt) : Nat := 2 * a.badW.length + 2 * a.badC.length + 5 + a.ending.steps

/-- An idle block with no abort requested, whose next steps are the sequencer's: it has no input waiting. -/
def Ready (s : State) : Prop := s.task = none ∧ s.abortReq = false ∧ s.inputs = []

/-- The frame buffer holds the bytes of `bs` from index `a` on (20_memory.md R74). -/
def FbHolds (s : State) (a : Nat) (bs : List Byte) : Prop :=
  ∀ i, i < bs.length → Memory.read s.fb (a + i) = bs[i]?

/-- Some byte of `FB[a..a+n)` has never been written (70_reset_and_hazards.md R390). -/
def SomeUnwritten (s : State) (a n : Nat) : Prop := ∃ i, i < n ∧ Memory.read s.fb (a + i) = none

/-- `n` steps of the machine. -/
def runSteps (n : Nat) (s : State) : Answer := Host.Core.run Sys2Proof.core n s

/-- Host-only commands issued one after the other, each from the state the one before left (20_memory.md R87). -/
def execSeq : List Instr → State → Answer
  | [], s => .next s
  | i :: is, s =>
    match exec i s with
    | .next t => execSeq is t
    | .fault r => .fault r
    | .refused r => .refused r

/-- The command word the next step accepts: a word the host writes to CMD while no operation runs (10_state.md R32). -/
def acceptedWord (s : State) : Option Word :=
  match s.task, s.inputs with
  | none, .host (.write .word a w) :: _ => if a = 0x000 then some w else none
  | _, _ => none

/-- The OP byte of the command the next step accepts (30_encoding.md R100). -/
def acceptedOp (s : State) : Option Nat := (acceptedWord s).map fun w => w.toNat % 256

/-- Reset is the next input (70_reset_and_hazards.md R380). -/
def resetNext (s : State) : Bool := s.inputs.head? == some .reset

/-- The command of a serial operation. -/
def SerialOp.instr : SerialOp → Instr
  | .wake => .wake
  | .setper n => .setper n
  | .clrlog => .clrlog
  | .pollRt => .pollRt
  | .download => .download
  | .pollArc => .pollArc

/-- The suspension point of the running operation is an Rx or a Pause (20_memory.md R85). -/
def Point.waits : Point → Bool
  | .tx _ => false
  | .rx _ => true
  | .pause _ => true

/-- A byte sequence with bit `k` changed, bit 0 the least significant bit of its first byte (40_crc.md R136). -/
def flipBit (bs : List Byte) (k : Nat) : List Byte := bs.modify (k / 8) fun b => b ^^^ (1#8 <<< (k % 8))

/-- The pair `x` is strictly newer than `y`: date first, then time, as unsigned numbers (43_download.md R282). -/
def Newer (x y : Half × Half) : Prop :=
  y.1.toNat < x.1.toNat ∨ (x.1 = y.1 ∧ y.2.toNat < x.2.toNat)

/-- Position `j` of `l` is the one POLL_ARC selects above the watermark `wm`: its pair is newer, none in the list is newer than
it, and every earlier position that is newer than the watermark has an older pair (43_download.md R282). -/
def Selected (wm : Half × Half) (l : List ArcEntry) (j : Nat) (e : ArcEntry) : Prop :=
  l[j]? = some e ∧ Newer (stampOf e.record) wm ∧ (∀ x ∈ l, ¬ Newer (stampOf x.record) (stampOf e.record)) ∧
  ∀ k x, k < j → l[k]? = some x → Newer (stampOf e.record) (stampOf x.record)

end Sys2Proof.Machine
end

