-- ==== Sys2Proof/Certificates/Slice0/Obligations.lean ====
section
/-! DEFINITION. What the model claims, stated from the spec's rules. `{ s with .. }` states a whole next state, so that everything
it does not name is unchanged. -/

open Sys2Proof Sys2Proof.Machine

/-! ## Encoding (30_encoding.md) -/

/-- Every operation survives encoding and decoding, and its word is `(a16 << 16) | (a8 << 8) | OP` (R100, R102, R105). -/
def Obligations.EncodeDecodeRoundTrip : Prop :=
  ∀ i : Instr, i.wf = true →
    (encode i).toNat = i.a16 * 2 ^ 16 + i.a8 * 2 ^ 8 + i.opcode.toNat ∧ decodeWord (encode i) = .ok i

/-- The arguments are read unsigned and unscaled, and an argument field an operation does not use changes nothing (R101). -/
def Obligations.OperandFields : Prop :=
  ∀ w : Word,
    (w.toNat % 256 = 0x02 → decodeWord w = .ok (.crcByte (w.toNat / 2 ^ 8 % 2 ^ 8))) ∧
    (w.toNat % 256 = 0x10 → decodeWord w = .ok (.decSnap (w.toNat / 2 ^ 16))) ∧
    (w.toNat % 256 = 0x11 → decodeWord w = .ok (.decArca (w.toNat / 2 ^ 16))) ∧
    (w.toNat % 256 = 0x12 → decodeWord w = .ok (.decArcb (w.toNat / 2 ^ 16))) ∧
    (w.toNat % 256 = 0x13 → decodeWord w = .ok (.decArc (w.toNat / 2 ^ 16))) ∧
    (w.toNat % 256 = 0x14 → decodeWord w = .ok (.decHdr (w.toNat / 2 ^ 16))) ∧
    (w.toNat % 256 = 0x15 → decodeWord w = .ok (.decPage (w.toNat / 2 ^ 16))) ∧
    (w.toNat % 256 = 0x21 → decodeWord w = .ok (.setper (w.toNat / 2 ^ 16))) ∧
    ∀ w' : Word, w.toNat % 256 ∉ [0x02, 0x10, 0x11, 0x12, 0x13, 0x14, 0x15, 0x21] →
      w'.toNat % 256 = w.toNat % 256 → decodeWord w' = decodeWord w

/-- A command whose OP is reserved is accepted, does nothing and finishes at once with ILLEGAL_OP (R103). -/
def Obligations.ReservedOpIllegal : Prop :=
  ∀ (s : State) (w : Word), s.task = none →
    (0x06 ≤ w.toNat % 256 ∧ w.toNat % 256 ≤ 0x0F) ∨ (0x16 ≤ w.toNat % 256 ∧ w.toNat % 256 ≤ 0x1F) ∨
      (0x26 ≤ w.toNat % 256 ∧ w.toNat % 256 ≤ 0x3E) ∨ 0x40 ≤ w.toNat % 256 →
    hostAccess (.write .word 0x000 w) s =
      .next { s with
        cmd := w, lastop := BitVec.ofNat 8 (w.toNat % 256), ovr := false,
        done := true, code := .illegalOp, abortReq := false }

/-- Words written out from the opcode map and the formats decode to their operations (R100, R102). A sanity statement. -/
def Obligations.WordsDecode : Prop :=
  decodeTableWord 32 0x00000000 = some .nop ∧ decodeTableWord 32 0x00004102 = some (.crcByte 0x41) ∧
  decodeTableWord 32 0x00000004 = some .verify ∧ decodeTableWord 32 0x00F50015 = some (.decPage 245) ∧
  decodeTableWord 32 0xFFFF0021 = some (.setper 65535) ∧ decodeTableWord 32 0x00000025 = some .pollArc ∧
  decodeTableWord 32 0x0000003F = some .abort ∧ decodeTableWord 32 0x00000006 = none ∧ decodeTableWord 32 0x000000FF = none

/-! ## Commands (10_state.md R32) and completion (60_exceptions.md R345) -/

/-- A write to CMD: accepted while idle, with its registers set and its operation started; while an operation runs ABORT sets
ABORT_REQ only and any other word is lost with OVR set; CMD reads back the last accepted word (R32). -/
def Obligations.CommandWrite : Prop :=
  ∀ (s : State) (w : Word),
    (∀ i, s.task = none → decodeWord w = .ok i →
      hostAccess (.write .word 0x000 w) s =
        exec i { s with cmd := w, lastop := w.extractLsb' 0 8, done := false, ovr := false }) ∧
    (s.task = none → ∀ u, hostAccess (.write .word 0x000 w) s = .next u →
      u.cmd = w ∧ u.lastop = w.extractLsb' 0 8 ∧ u.ovr = false) ∧
    (s.task ≠ none → w.toNat % 256 = 0x3F → hostAccess (.write .word 0x000 w) s = .next { s with abortReq := true }) ∧
    (s.task ≠ none → w.toNat % 256 ≠ 0x3F → hostAccess (.write .word 0x000 w) s = .next { s with ovr := true }) ∧
    (s.task = none → hostAccess (.read .word 0x000) s = .next { s with rdata := some (.word s.cmd) }) ∧
    State.reset.cmd = 0x00000000

/-- A step whose next input is a command runs the operation the decoder reads from its word, on the state acceptance leaves (R32,
R102). This is what links the statements about `exec` to a run. -/
def Obligations.StepRunsAcceptedCommand : Prop :=
  ∀ (s : State) (nbits w : Nat) (i : Instr), s.task = none → decodeTableWord nbits w = some i →
    step (s.withFetchWord nbits w) =
      exec i { s with
        cmd := tableWord nbits w, lastop := (tableWord nbits w).extractLsb' 0 8, done := false, ovr := false }

/-- `finish(code)`: CODE and DONE, BUSY and ABORT_REQ cleared, the loop state discarded, SEQ only for a serial operation, and
nothing else (R345). -/
def Obligations.FinishWrites : Prop :=
  ∀ (s : State) (code : Code),
    (∀ t, s.task = some t →
      finish code s = { s with
        code := code, done := true, abortReq := false, task := none, seq := if code = .ok then .done else .aborted }) ∧
    (s.task = none → finish code s = { s with code := code, done := true, abortReq := false })

/-! ## Reset (10_state.md R48, 70_reset_and_hazards.md R380) -/

/-- The value of every piece of the block's state after reset (R48). -/
def Obligations.ResetValues : Prop :=
  State.reset.cmd = 0x00000000 ∧ State.reset.busy = false ∧ State.reset.done = false ∧ State.reset.valid = false ∧
  State.reset.ovr = false ∧ State.reset.code = .ok ∧ State.reset.lastop = 0x00 ∧ State.reset.seq = .idle ∧
  State.reset.acc = 0x0000 ∧ State.reset.acc = cfg.crcInit ∧ State.reset.len = 0 ∧
  (∀ i, Memory.read State.reset.fb i = none) ∧ State.reset.wmDate = 0x0000 ∧ State.reset.wmTime = 0x0000 ∧
  State.reset.rev = .unknown ∧ rlcntWord State.reset = 0 ∧ selWord State.reset = 0 ∧ progWord State.reset = 0 ∧
  State.reset.result = .none ∧ State.reset.rlist = [] ∧ State.reset.abortReq = false ∧ State.reset.txBytes = [] ∧
  statusWord State.reset = 0

/-- Reset, whatever runs, puts the whole block into its reset state in one step and transmits nothing; an idle block without
input then waits (R380, R381). That reset does not overtake a cancellation already due is the model's order (log 5); what the
outside holds is kept (log 16). -/
def Obligations.ResetInOneStep : Prop :=
  (∀ (s : State) (rest : List Input), cancelDue s = false → s.inputs = .reset :: rest →
    step s = .next { State.reset with inputs := rest, answers := s.answers, draws := s.draws, rdata := s.rdata }) ∧
  ∀ s : State, s.task = none → s.inputs = [] → step s = .next s

/-! ## Control (44_control.md) -/

/-- NOP, and ABORT while idle, only finish with OK; accepted by the block they clear OVR (R320, R322). -/
def Obligations.NopAndIdleAbort : Prop :=
  ∀ s : State, s.task = none →
    exec .nop s = .next { s with code := .ok, done := true, abortReq := false } ∧
    exec .abort s = .next { s with code := .ok, done := true, abortReq := false } ∧
    ∀ w : Word, w.toNat % 256 = 0x00 ∨ w.toNat % 256 = 0x3F →
      hostAccess (.write .word 0x000 w) s =
        .next { s with
          cmd := w, lastop := BitVec.ofNat 8 (w.toNat % 256), ovr := false, code := .ok, done := true, abortReq := false }

/-- ABORT while an operation waits in an Rx or a Pause: the operation ends with CANCELLED in the next step, nothing is
transmitted, the answer is discarded, and every register keeps what the operation had written (R322). That the cancellation is a
step of its own is the model's (log 5), and so is the record of the abandoned Rx (log 9). -/
def Obligations.AbortStopsWaiting : Prop :=
  ∀ (s : State) (t : Task) (w : Word) (rest : List Input),
    s.task = some t → t.point.waits = true → s.abortReq = false →
    s.inputs = .host (.write .word 0x000 w) :: rest → w.toNat % 256 = 0x3F →
    ∃ u l, runSteps 2 s = .next u ∧ (∀ r ∈ l, r.answer = none) ∧
      u = { s with
        inputs := rest, task := none, code := .cancelled, done := true, seq := .aborted, rxLog := s.rxLog ++ l }

/-- ABORT_REQ during a Tx: the Tx completes whole and the operation ends in the same step. Where a suspension point would begin, it
ends with CANCELLED and WM, RLIST and RESULT are untouched; where none begins, it ends with its own outcome: after the escape byte
NO_RESULT, or NO_NEW_RECORDS in the last attempt of POLL_ARC (an earlier one would pause); after the acknowledgement of a header
without pages, or of the last page, OK (R322, R81; 60_exceptions.md R351). That the header's page count is read from the receive
buffer then is log 20. -/
def Obligations.AbortAfterTx : Prop :=
  ∀ (s : State) (t : Task) (p : TxPoint),
    s.task = some t → t.point = .tx p → s.abortReq = true → s.inputs = [] →
    ∃ u, step s = .next u ∧ u.txLog = s.txLog ++ [txBytesOf cfg s t p] ∧ u.rxLog = s.rxLog ∧
      u.task = none ∧ u.done = true ∧ u.abortReq = false ∧
      (p = .wake ∨ p = .send ∨ p = .watermark → u.code = .cancelled) ∧
      (p = .escape → t.op ≠ .pollArc → u.code = .noResult) ∧
      (p = .escape → t.op = .pollArc → t.kd < 3 → u.code = .cancelled) ∧
      (p = .escape → t.op = .pollArc → 3 ≤ t.kd → u.code = .noNewRecords) ∧
      (p = .headerAck → le16 t.rxbuf 0 ≠ 0 → u.code = .cancelled) ∧
      (p = .headerAck → le16 t.rxbuf 0 = 0 → u.code = .ok) ∧
      (p = .pageAck → s.pidx.toNat + 1 < s.pages.toNat → u.code = .cancelled) ∧
      (p = .pageAck → s.pages.toNat ≤ s.pidx.toNat + 1 → u.code = .ok) ∧
      (u.code = .ok → u.seq = .done) ∧
      (u.code ≠ .ok → u.seq = .aborted ∧ u.wmDate = s.wmDate ∧ u.wmTime = s.wmTime ∧ u.rlist = s.rlist ∧
        u.result = s.result)

/-! ## CRC engine (40_crc.md) -/

/-- Zero residue for every body and every parameter choice; every all-zero frame of one or more bytes is valid; any single-bit
change of a valid frame makes it invalid (R136). -/
def Obligations.FrameResidue : Prop :=
  (∀ (c : Config) (m : List Byte), crc c (m ++ be16bytes (crc c m)) = 0x0000) ∧
  (∀ n, 0 < n → verify cfg (List.replicate n 0x00) = true) ∧
  ∀ (f : List Byte) (k : Nat), verify cfg f = true → k < 8 * f.length → verify cfg (flipBit f k) = false

/-- CRC_CLR (R133). -/
def Obligations.CrcClrRule : Prop :=
  ∀ s : State, s.task = none →
    exec .crcClr s = .next { s with acc := 0x0000, code := .ok, done := true, abortReq := false }

/-- CRC_BYTE: one step of the accumulator; from ACC = 0 the bytes of `bs` in order leave `crc(bs)`, and its two bytes then leave
0 (R134). -/
def Obligations.CrcByteRule : Prop :=
  (∀ (s : State) (b : Nat), s.task = none → b < 256 →
    exec (.crcByte b) s = .next { s with
      acc := crcTable 0x1021 ((s.acc >>> 8).setWidth 8 ^^^ BitVec.ofNat 8 b) ^^^ ((s.acc &&& 0x00FF) <<< 8)
      code := .ok, done := true, abortReq := false }) ∧
  ∀ (s : State) (bs : List Byte), s.task = none → s.acc = 0x0000 → s.abortReq = false → s.code = .ok → s.done = true →
    execSeq (bs.map fun b => .crcByte b.toNat) s = .next { s with acc := crc cfg bs } ∧
    execSeq ((bs ++ be16bytes (crc cfg bs)).map fun b => .crcByte b.toNat) s = .next { s with acc := 0x0000 }

/-- CRC_BUF: ACC is the CRC of `FB[0..LEN)`; VALID and everything else stay (R135). -/
def Obligations.CrcBufRule : Prop :=
  ∀ (s : State) (bs : List Byte), s.task = none → bs.length = s.len.toNat → FbHolds s 0 bs →
    exec .crcBuf s = .next { s with acc := crc cfg bs, code := .ok, done := true, abortReq := false }

/-- VERIFY: ACC as CRC_BUF, VALID whether the frame is not empty and its CRC is 0; an invalid frame is no error (R137). -/
def Obligations.VerifyRule : Prop :=
  ∀ (s : State) (bs : List Byte), s.task = none → bs.length = s.len.toNat → FbHolds s 0 bs →
    exec .verify s = .next { s with
      acc := crc cfg bs, valid := decide (0 < bs.length ∧ crc cfg bs = 0x0000), code := .ok, done := true, abortReq := false }

/-- CRC_APPEND: overflow changes nothing but the completion; otherwise the CRC stands big-endian behind the body, LEN grows by 2,
no other byte of FB changes, and a VERIFY gives VALID = 1 (R138). -/
def Obligations.CrcAppendRule : Prop :=
  ∀ s : State, s.task = none →
    (512 < s.len.toNat + 2 →
      exec .crcAppend s = .next { s with code := .bufOverflow, done := true, abortReq := false }) ∧
    ∀ bs : List Byte, bs.length = s.len.toNat → FbHolds s 0 bs → s.len.toNat + 2 ≤ 512 →
      ∃ u v, exec .crcAppend s = .next u ∧
        u = { s with
          acc := crc cfg bs, fb := u.fb, len := BitVec.ofNat 10 (s.len.toNat + 2),
          code := .ok, done := true, abortReq := false } ∧
        Memory.read u.fb s.len.toNat = some ((crc cfg bs).extractLsb' 8 8) ∧
        Memory.read u.fb (s.len.toNat + 1) = some ((crc cfg bs).extractLsb' 0 8) ∧
        (∀ a, a ≠ s.len.toNat → a ≠ s.len.toNat + 1 → Memory.read u.fb a = Memory.read s.fb a) ∧
        exec .verify u = .next v ∧ v.valid = true

/-! ## Record codec (41_record_codec.md) -/

/-- A layout's entries tile its region: each is read, then transformed, at the sum of the widths before it (R160). -/
def Obligations.LayoutEntriesTile : Prop :=
  ∀ (signed : Bool) (l l' : Layout) (e : Entry) (bs : List Byte) (p : Nat),
    decodeLayout signed (l ++ e :: l') bs p =
      decodeLayout signed l bs p ++
        (e.name, applyTransform e.transform (readKind signed e.kind bs (p + l.size))) ::
          decodeLayout signed l' bs (p + l.size + e.kind.width)

/-- The archive stamps: year, month and day, hour and minute, with the raw values, no range check (R173, R174). -/
def Obligations.ArchiveStamps : Prop :=
  ∀ v : Half,
    expandDate v = .adate v (2000 + v.toNat / 512) (v.toNat / 32 % 16) (v.toNat % 32) ∧
    expandTime v = .atime v (v.toNat / 100) (v.toNat % 100)

/-- The storm-start date: its triple and the 10 characters "YYYY-MM-DD" of every 16-bit value (R175). -/
def Obligations.StormDateText : Prop :=
  ∀ v : Half,
    expandStormDate v = .sdate (2000 + v.toNat % 128) (v.toNat / 4096) (v.toNat / 128 % 32)
      (let y := 2000 + v.toNat % 128
       let m := v.toNat / 4096
       let d := v.toNat / 128 % 32
       [asciiDigit (y / 1000), asciiDigit (y / 100 % 10), asciiDigit (y / 10 % 10), asciiDigit (y % 10), 0x2D,
        asciiDigit (m / 10), asciiDigit (m % 10), 0x2D, asciiDigit (d / 10), asciiDigit (d % 10)])

/-- The clock text "HH:MM"; from 10000 on the hour has 3 digits (R177). -/
def Obligations.ClockText : Prop :=
  ∀ v : Half,
    expandClock v = .hhmm (v.toNat / 100) (v.toNat % 100)
      ((if 10000 ≤ v.toNat then [asciiDigit (v.toNat / 10000)] else []) ++
        [asciiDigit (v.toNat / 1000 % 10), asciiDigit (v.toNat / 100 % 10), 0x3A,
         asciiDigit (v.toNat / 10 % 10), asciiDigit (v.toNat % 10)])

/-- `dec(v)` is decimal, without leading zeros (00_scope.md R15). -/
def Obligations.DecimalText : Prop :=
  ∀ v : Nat,
    (∀ b ∈ dec v, 0x30 ≤ b.toNat ∧ b.toNat ≤ 0x39) ∧
    (dec v).foldl (fun n b => n * 10 + (b.toNat - 0x30)) 0 = v ∧
    (0 < v → (dec v).head? ≠ some 0x30) ∧ dec 0 = [0x30]

/-- Every field of a decoded snapshot, at its offset and under its transform (R163; the offsets are the spec's general
knowledge, log 14). -/
def Obligations.SnapshotFields : Prop :=
  ∀ (bs : List Byte) (p : Nat),
    decodeSnap cfg bs p =
      [(.marker, .bytes (slice bs p 3)), (.barTrend, .num (u8 bs (p + 3)).toNat), (.packetType, .num (u8 bs (p + 4)).toNat),
       (.nextRec, .num (le16 bs (p + 5)).toNat), (.pressure, .ratio (mkRat (le16 bs (p + 7)).toNat 1000)),
       (.tempIn, .ratio (mkRat (s16 (le16 bs (p + 9))) 10)), (.humIn, .num (u8 bs (p + 11)).toNat),
       (.tempOut, .ratio (mkRat (s16 (le16 bs (p + 12))) 10)), (.windSpeed, .num (u8 bs (p + 14)).toNat),
       (.windSpeed10Min, .num (u8 bs (p + 15)).toNat), (.windDir, .num (le16 bs (p + 16)).toNat)] ++
      [(.extraTemps, .ints (off90 (slice bs (p + 18) 7))), (.soilTemps, .ints (off90 (slice bs (p + 25) 4))),
       (.leafTemps, .ints (off90 (slice bs (p + 29) 4))), (.humOut, .num (u8 bs (p + 33)).toNat),
       (.humExtra, .ints (splitBytes (slice bs (p + 34) 7))), (.rainRate, .ratio (mkRat (le16 bs (p + 41)).toNat 100)),
       (.uv, .num (u8 bs (p + 43)).toNat), (.solarRad, .num (le16 bs (p + 44)).toNat),
       (.rainStorm, .ratio (mkRat (le16 bs (p + 46)).toNat 100)), (.stormStartDate, expandStormDate (le16 bs (p + 48))),
       (.rainDay, .ratio (mkRat (le16 bs (p + 50)).toNat 100))] ++
      [(.rainMonth, .ratio (mkRat (le16 bs (p + 52)).toNat 100)), (.rainYear, .ratio (mkRat (le16 bs (p + 54)).toNat 100)),
       (.etDay, .ratio (mkRat (le16 bs (p + 56)).toNat 1000)), (.etMonth, .ratio (mkRat (le16 bs (p + 58)).toNat 100)),
       (.etYear, .ratio (mkRat (le16 bs (p + 60)).toNat 100)), (.soilMoist, .ints (splitBytes (slice bs (p + 62) 4))),
       (.leafWetness, .ints (splitBytes (slice bs (p + 66) 4))), (.alarmIn, .num (u8 bs (p + 70)).toNat),
       (.alarmRain, .num (u8 bs (p + 71)).toNat), (.alarmOut, .num (le16 bs (p + 72)).toNat),
       (.alarmExTempHum, .ints (splitBytes (slice bs (p + 74) 8)))] ++
      [(.alarmSoilLeaf, .ints (splitBytes (slice bs (p + 82) 4))), (.batteryStatus, .num (u8 bs (p + 86)).toNat),
       (.batteryVolts, .ratio (mkRat (3 * (le16 bs (p + 87)).toNat) 512)), (.forecastIcon, .num (u8 bs (p + 89)).toNat),
       (.forecastRuleNo, .num (u8 bs (p + 90)).toNat), (.sunRise, expandClock (le16 bs (p + 91))),
       (.sunSet, expandClock (le16 bs (p + 93))), (.eol, .bytes (slice bs (p + 95) 2)),
       (.crc, .num (be16 bs (p + 97)).toNat)]

/-- Every field of an archive record of either revision: the common prefix, then the revision's tail (R164 to R167; the offsets
are the spec's general knowledge, log 14). -/
def Obligations.ArchiveFields : Prop :=
  ∀ (bs : List Byte) (p : Nat),
    decodePrefix cfg bs p =
      [(.dateStamp, expandDate (le16 bs p)), (.timeStamp, expandTime (le16 bs (p + 2))),
       (.tempOut, .ratio (mkRat (s16 (le16 bs (p + 4))) 10)), (.tempOutHi, .ratio (mkRat (s16 (le16 bs (p + 6))) 10)),
       (.tempOutLow, .ratio (mkRat (s16 (le16 bs (p + 8))) 10)), (.rainRain, .ratio (mkRat (le16 bs (p + 10)).toNat 100)),
       (.rainRateHi, .ratio (mkRat (le16 bs (p + 12)).toNat 100)), (.barometer, .ratio (mkRat (le16 bs (p + 14)).toNat 1000)),
       (.solarRad, .num (le16 bs (p + 16)).toNat), (.windSamps, .num (le16 bs (p + 18)).toNat),
       (.tempIn, .ratio (mkRat (s16 (le16 bs (p + 20))) 10))] ++
      [(.humIn, .num (u8 bs (p + 22)).toNat), (.humOut, .num (u8 bs (p + 23)).toNat), (.windAvg, .num (u8 bs (p + 24)).toNat),
       (.windHi, .num (u8 bs (p + 25)).toNat), (.windHiDir, .num (u8 bs (p + 26)).toNat),
       (.windAvgDir, .num (u8 bs (p + 27)).toNat), (.uv, .num (u8 bs (p + 28)).toNat),
       (.etHour, .ratio (mkRat (u8 bs (p + 29)).toNat 1000))] ∧
    decodeA cfg bs p = decodePrefix cfg bs p ++
      [(.unused1, .num (u8 bs (p + 30)).toNat), (.soilMoist, .ints (splitBytes (slice bs (p + 31) 4))),
       (.soilTemps, .ints (off90 (slice bs (p + 35) 4))), (.leafWetness, .ints (splitBytes (slice bs (p + 39) 4))),
       (.extraTemps, .ints (off90 (slice bs (p + 43) 2))), (.extraHum, .ints (splitBytes (slice bs (p + 45) 2))),
       (.reedClosed, .num (le16 bs (p + 47)).toNat), (.reedOpened, .num (le16 bs (p + 49)).toNat),
       (.unused2, .num (u8 bs (p + 51)).toNat)] ∧
    decodeB cfg bs p = decodePrefix cfg bs p ++
      [(.solarRadHi, .num (le16 bs (p + 30)).toNat), (.uvHi, .num (u8 bs (p + 32)).toNat),
       (.forecastRuleNo, .num (u8 bs (p + 33)).toNat), (.leafTemps, .ints (off90 (slice bs (p + 34) 2))),
       (.leafWetness, .ints (splitBytes (slice bs (p + 36) 2))), (.soilTemps, .ints (off90 (slice bs (p + 38) 4))),
       (.recType, .num (u8 bs (p + 42)).toNat), (.extraHum, .ints (splitBytes (slice bs (p + 43) 2))),
       (.extraTemps, .ints (off90 (slice bs (p + 45) 3))), (.soilMoist, .ints (splitBytes (slice bs (p + 48) 4)))]

/-! ### The decode operations: input too short, and input long enough; nothing else of the state changes -/

/-- DEC_SNAP p (R187). -/
def Obligations.DecSnapRule : Prop :=
  ∀ (s : State) (p : Nat), s.task = none →
    (s.len.toNat < p + 99 →
      exec (.decSnap p) s = .next { s with result := .none, code := .decodeFail, done := true, abortReq := false }) ∧
    ∀ bs : List Byte, p + 99 ≤ s.len.toNat → bs.length = 99 → FbHolds s p bs →
      exec (.decSnap p) s =
        .next { s with result := .snap (decodeSnap cfg bs 0), code := .ok, done := true, abortReq := false }

/-- DEC_ARCA p: REV is neither read nor written (R188). -/
def Obligations.DecArcaRule : Prop :=
  ∀ (s : State) (p : Nat), s.task = none →
    (s.len.toNat < p + 52 →
      exec (.decArca p) s = .next { s with result := .none, code := .decodeFail, done := true, abortReq := false }) ∧
    ∀ bs : List Byte, p + 52 ≤ s.len.toNat → bs.length = 52 → FbHolds s p bs →
      exec (.decArca p) s = .next { s with
        result := .arc { rev := .a, record := decodeA cfg bs 0 }, code := .ok, done := true, abortReq := false }

/-- DEC_ARCB p: REV is neither read nor written (R189). -/
def Obligations.DecArcbRule : Prop :=
  ∀ (s : State) (p : Nat), s.task = none →
    (s.len.toNat < p + 52 →
      exec (.decArcb p) s = .next { s with result := .none, code := .decodeFail, done := true, abortReq := false }) ∧
    ∀ bs : List Byte, p + 52 ≤ s.len.toNat → bs.length = 52 → FbHolds s p bs →
      exec (.decArcb p) s = .next { s with
        result := .arc { rev := .b, record := decodeB cfg bs 0 }, code := .ok, done := true, abortReq := false }

/-- DEC_ARC p: an unknown revision is probed at byte 42 and kept; the record is decoded under the flag, whatever its own
discriminator says (R190). -/
def Obligations.DecArcRule : Prop :=
  ∀ (s : State) (p : Nat), s.task = none →
    (s.len.toNat < p + 52 →
      exec (.decArc p) s = .next { s with result := .none, code := .decodeFail, done := true, abortReq := false }) ∧
    ∀ bs : List Byte, p + 52 ≤ s.len.toNat → bs.length = 52 → FbHolds s p bs →
      (s.rev = .b ∨ (s.rev = .unknown ∧ bs[42]? = some 0x00) →
        exec (.decArc p) s = .next { s with
          rev := .b, result := .arc { rev := .b, record := decodeB cfg bs 0 }, code := .ok, done := true,
          abortReq := false }) ∧
      (s.rev = .a ∨ (s.rev = .unknown ∧ bs[42]? ≠ some 0x00) →
        exec (.decArc p) s = .next { s with
          rev := .a, result := .arc { rev := .a, record := decodeA cfg bs 0 }, code := .ok, done := true,
          abortReq := false })

/-- DEC_HDR p: two little-endian fields and a big-endian CRC; PROG is not written (R191). -/
def Obligations.DecHdrRule : Prop :=
  ∀ (s : State) (p : Nat), s.task = none →
    (s.len.toNat < p + 6 →
      exec (.decHdr p) s = .next { s with result := .none, code := .decodeFail, done := true, abortReq := false }) ∧
    ∀ b0 b1 b2 b3 b4 b5 : Byte, p + 6 ≤ s.len.toNat → FbHolds s p [b0, b1, b2, b3, b4, b5] →
      exec (.decHdr p) s = .next { s with
        result := .hdr (b1 ++ b0) (b3 ++ b2) (b4 ++ b5), code := .ok, done := true, abortReq := false }

/-- DEC_PAGE p: index, 260 bytes, 4 bytes of padding, a big-endian CRC, none of them checked; with a legal LEN an offset past 245
always fails (R192). -/
def Obligations.DecPageRule : Prop :=
  ∀ (s : State) (p : Nat), s.task = none →
    (s.len.toNat < p + 267 ∨ (s.len.toNat ≤ 512 ∧ 245 < p) →
      exec (.decPage p) s = .next { s with result := .none, code := .decodeFail, done := true, abortReq := false }) ∧
    ∀ (b : Byte) (blob padding : List Byte) (hi lo : Byte), p + 267 ≤ s.len.toNat → blob.length = 260 → padding.length = 4 →
      FbHolds s p (b :: (blob ++ padding ++ [hi, lo])) →
      exec (.decPage p) s = .next { s with
        result := .page b blob padding (hi ++ lo), code := .ok, done := true, abortReq := false }

/-! ## Serial operations: start (10_state.md R33, R41) -/

/-- The accepting step of every serial operation: BUSY, the wake phase, the cleared results of the polls and downloads, and
nothing transmitted yet (42_handshake.md R240 to R242, 43_download.md R279, R281, R286). The hidden state it starts with, `newTask`, is
the model's choice where no loop has set it: ks, kr and an unused kd 1, the offset 0, the private accumulator CRC_INIT, the receive
buffer empty (log 11). -/
def Obligations.SerialOperationsStart : Prop :=
  ∀ s : State, s.task = none → s.abortReq = false →
    exec .wake s = .next { s with seq := .wake, task := some (newTask cfg .wake) } ∧
    (∀ n, exec (.setper n) s = .next { s with seq := .wake, task := some (newTask cfg (.setper n)) }) ∧
    exec .clrlog s = .next { s with seq := .wake, task := some (newTask cfg .clrlog) } ∧
    exec .pollRt s = .next { s with result := .none, seq := .wake, task := some (newTask cfg .pollRt) } ∧
    exec .download s = .next { s with
      rlist := [], selValid := false, selIndex := 0, pages := 0, pidx := 0, seq := .wake,
      task := some (newTask cfg .download) } ∧
    exec .pollArc s = .next { s with
      result := .none, rlist := [], selValid := false, selIndex := 0, pages := 0, pidx := 0, seq := .wake,
      task := some (newTask cfg .pollArc) }

/-! ## Serial operations: their runs against the device's answers -/

/-- The machine, which stops at every suspension point, runs every serial operation to exactly the end that the spec's own
procedures describe, whatever the device answers (42_handshake.md R231 to R242, 43_download.md R270 to R288). The two are compared on
the whole state, with what the channel has seen in it, which the model keeps across finish (log 9); both take an answer of another
length as log 2 says. -/
def Obligations.MachineFollowsProcedures : Prop :=
  ∀ (op : SerialOp) (s : State), Ready s →
    ∃ t n, exec op.instr s = .next t ∧ runSteps n t = .next (operationProc cfg op s)

/-- WAKE: up to two failed attempts (timeouts or other bytes) then the acknowledgement give OK; three failed attempts give
DEVICE_UNREACHABLE; one line feed per attempt and nothing else is transmitted, one Rx of 2 bytes with T_ACK follows each
(42_handshake.md R231, R240). The channel's record of these Rx is the model's own and outlives the operation (log 9); an answer too
short is a timeout and one too long is cut (log 2). -/
def Obligations.WakeTries : Prop :=
  ∀ (s : State) (bad rest : List RxAnswer), Ready s → (∀ a ∈ bad, clampAnswer 2 a ≠ .data [0x0A, 0x0D]) →
    (bad.length ≤ 2 → s.answers = bad ++ .data [0x0A, 0x0D] :: rest →
      ∃ t u, exec .wake s = .next t ∧ runSteps (2 * bad.length + 2) t = .next u ∧
        u = { s with
          seq := .done, code := .ok, done := true, answers := rest,
          txLog := s.txLog ++ List.replicate (bad.length + 1) [0x0A],
          rxLog := s.rxLog ++ (bad ++ [RxAnswer.data [0x0A, 0x0D]]).map fun a =>
            { n := 2, timeout := 1200, answer := some (clampAnswer 2 a) } }) ∧
    (bad.length = 3 → s.answers = bad ++ rest →
      ∃ t u, exec .wake s = .next t ∧ runSteps 6 t = .next u ∧
        u = { s with
          seq := .aborted, code := .deviceUnreachable, done := true, answers := rest,
          txLog := s.txLog ++ List.replicate 3 [0x0A],
          rxLog := s.rxLog ++ bad.map fun a => { n := 2, timeout := 1200, answer := some (clampAnswer 2 a) } })

/-- SETPER and CLRLOG: every way their command can end, with the bytes transmitted. `F` is the command frame and `want` the
confirmation (42_handshake.md R238, R241, R242). That a wake answer too short is a timeout and one too long is cut is log 2. -/
def Obligations.CommandEndings : Prop :=
  ∀ (i : Instr) (F want : List Byte),
    (∃ n, n < 2 ^ 16 ∧ i = .setper n ∧ F = [0x53, 0x45, 0x54, 0x50, 0x45, 0x52, 0x20] ++ dec n ++ [0x20, 0x0A] ∧
      want = [0x0A, 0x0D, 0x4F, 0x4B, 0x0A, 0x0D]) ∨
    (i = .clrlog ∧ F = [0x43, 0x4C, 0x52, 0x4C, 0x4F, 0x47, 0x20, 0x0A] ∧ want = [0x06]) →
  ∀ (s : State) (badW badC rest : List RxAnswer), Ready s → (∀ a ∈ badW, clampAnswer 2 a ≠ .data [0x0A, 0x0D]) →
    (∀ a ∈ badC, ∃ bs, a = .data bs ∧ bs.length = want.length ∧ bs ≠ want) →
    (badW.length ≤ 2 → badC.length ≤ 2 → s.answers = badW ++ .data [0x0A, 0x0D] :: (badC ++ .data want :: rest) →
      ∃ t u, exec i s = .next t ∧ runSteps (2 * badW.length + 2 * badC.length + 4) t = .next u ∧
        u = { s with
          seq := .done, code := .ok, done := true, answers := rest, rxLog := u.rxLog,
          txLog := s.txLog ++ List.replicate (badW.length + 1) [0x0A] ++ List.replicate (badC.length + 1) F }) ∧
    (badW.length = 3 → s.answers = badW ++ rest →
      ∃ t u, exec i s = .next t ∧ runSteps 6 t = .next u ∧
        u = { s with
          seq := .aborted, code := .deviceUnreachable, done := true, answers := rest, rxLog := u.rxLog,
          txLog := s.txLog ++ List.replicate 3 [0x0A] }) ∧
    (badW.length ≤ 2 → badC.length ≤ 2 → s.answers = badW ++ .data [0x0A, 0x0D] :: (badC ++ .timeout :: rest) →
      ∃ t u, exec i s = .next t ∧ runSteps (2 * badW.length + 2 * badC.length + 4) t = .next u ∧
        u = { s with
          seq := .aborted, code := .deviceUnreachable, done := true, answers := rest, rxLog := u.rxLog,
          txLog := s.txLog ++ List.replicate (badW.length + 1) [0x0A] ++ List.replicate (badC.length + 1) F }) ∧
    (badW.length ≤ 2 → badC.length = 3 → s.answers = badW ++ .data [0x0A, 0x0D] :: (badC ++ rest) →
      ∃ t u, exec i s = .next t ∧ runSteps (2 * badW.length + 8) t = .next u ∧
        u = { s with
          seq := .aborted, code := .deviceUnreachable, done := true, answers := rest, rxLog := u.rxLog,
          txLog := s.txLog ++ List.replicate (badW.length + 1) [0x0A] ++ List.replicate 3 F })

/-- POLL_RT on a device that confirms the command: up to two frames that fail the CRC, a pause after each, then a good one give
its decoded snapshot; three bad frames, or a timeout, give DEVICE_UNREACHABLE with RESULT = NONE; `LOOP 1` is sent once
(43_download.md R286, R287). -/
def Obligations.PollRtReads : Prop :=
  ∀ (s : State) (bad : List (List Byte)) (rest : List RxAnswer), Ready s →
    (∀ f ∈ bad, f.length = 99 ∧ verify cfg f = false) →
    (∀ f : List Byte, bad.length ≤ 2 → f.length = 99 → verify cfg f = true →
      s.answers = .data [0x0A, 0x0D] :: .data [0x06] :: (bad.map .data ++ .data f :: rest) →
      ∃ t u, exec .pollRt s = .next t ∧ runSteps (2 * bad.length + 5) t = .next u ∧
        u = { s with
          result := .snap (decodeSnap cfg f 0), seq := .done, code := .ok, done := true, answers := rest, rxLog := u.rxLog,
          txLog := s.txLog ++ [[0x0A], [0x4C, 0x4F, 0x4F, 0x50, 0x20, 0x31, 0x20, 0x0A]] }) ∧
    (bad.length = 3 → s.answers = .data [0x0A, 0x0D] :: .data [0x06] :: (bad.map .data ++ rest) →
      ∃ t u, exec .pollRt s = .next t ∧ runSteps 9 t = .next u ∧
        u = { s with
          result := .none, seq := .aborted, code := .deviceUnreachable, done := true, answers := rest, rxLog := u.rxLog,
          txLog := s.txLog ++ [[0x0A], [0x4C, 0x4F, 0x4F, 0x50, 0x20, 0x31, 0x20, 0x0A]] }) ∧
    (bad.length ≤ 2 → s.answers = .data [0x0A, 0x0D] :: .data [0x06] :: (bad.map .data ++ .timeout :: rest) →
      ∃ t u, exec .pollRt s = .next t ∧ runSteps (2 * bad.length + 5) t = .next u ∧
        u = { s with
          result := .none, seq := .aborted, code := .deviceUnreachable, done := true, answers := rest, rxLog := u.rxLog,
          txLog := s.txLog ++ [[0x0A], [0x4C, 0x4F, 0x4F, 0x50, 0x20, 0x31, 0x20, 0x0A]] })

/-- DOWNLOAD of any number of valid pages: RLIST is what the walk of the pages collects, from the header's offset on page 0, every
page acknowledged; WM and RESULT are not written (43_download.md R271 to R279). -/
def Obligations.DownloadCollects : Prop :=
  ∀ (s : State) (h : List Byte) (fs : List (List Byte)) (rest : List RxAnswer), Ready s →
    h.length = 6 → verify cfg h = true → (le16 h 0).toNat = fs.length →
    (∀ f ∈ fs, f.length = 267 ∧ verify cfg f = true) →
    s.answers = .data [0x0A, 0x0D] :: .data [0x06] :: .data [0x06] :: .data h :: (fs.map .data ++ rest) →
    ∃ t u, exec .download s = .next t ∧ runSteps (2 * fs.length + 8) t = .next u ∧
      u = { s with
        rlist := (walkPages cfg (le16 h 2).toNat 0 fs (s.rev, [])).2
        rev := (walkPages cfg (le16 h 2).toNat 0 fs (s.rev, [])).1
        selValid := false, selIndex := 0, pages := le16 h 0, pidx := BitVec.ofNat 16 (fs.length - 1)
        seq := .done, code := .ok, done := true, answers := rest, rxLog := u.rxLog
        txLog := s.txLog ++ [[0x0A], [0x44, 0x4D, 0x50, 0x41, 0x46, 0x54, 0x20, 0x0A],
          le16bytes s.wmDate ++ le16bytes s.wmTime ++ be16bytes (crc cfg (le16bytes s.wmDate ++ le16bytes s.wmTime)),
          [0x06]] ++ List.replicate fs.length [0x06] }

/-- DOWNLOAD with a page that fails its CRC after earlier good ones: the escape byte is sent, the outcome is NO_RESULT and every
page already read is discarded; the revision the good pages fixed stays (43_download.md R275, R277, R280). -/
def Obligations.DownloadDiscards : Prop :=
  ∀ (s : State) (h : List Byte) (fs : List (List Byte)) (bad : List Byte) (rest : List RxAnswer), Ready s →
    h.length = 6 → verify cfg h = true → fs.length < (le16 h 0).toNat →
    (∀ f ∈ fs, f.length = 267 ∧ verify cfg f = true) → bad.length = 267 → verify cfg bad = false →
    s.answers = .data [0x0A, 0x0D] :: .data [0x06] :: .data [0x06] :: .data h :: (fs.map .data ++ .data bad :: rest) →
    ∃ t u, exec .download s = .next t ∧ runSteps (2 * fs.length + 10) t = .next u ∧
      u = { s with
        rlist := []
        rev := (walkPages cfg (le16 h 2).toNat 0 fs (s.rev, [])).1
        selValid := false, selIndex := 0, pages := le16 h 0, pidx := BitVec.ofNat 16 fs.length
        seq := .aborted, code := .noResult, done := true, answers := rest, rxLog := u.rxLog
        txLog := s.txLog ++ [[0x0A], [0x44, 0x4D, 0x50, 0x41, 0x46, 0x54, 0x20, 0x0A],
          le16bytes s.wmDate ++ le16bytes s.wmTime ++ be16bytes (crc cfg (le16bytes s.wmDate ++ le16bytes s.wmTime)),
          [0x06]] ++ List.replicate fs.length [0x06] ++ [[0x1B]] }

/-- POLL_ARC whose first attempt returns a list: RLIST holds it; with a record newer than the watermark the first maximal one is
selected into SEL and RESULT and the watermark moves to it; with none, nothing is selected and WM stays (43_download.md R281 to
R284). -/
def Obligations.PollArcSelects : Prop :=
  ∀ (s : State) (h : List Byte) (fs : List (List Byte)) (rest : List RxAnswer) (l : List ArcEntry), Ready s →
    h.length = 6 → verify cfg h = true → (le16 h 0).toNat = fs.length →
    (∀ f ∈ fs, f.length = 267 ∧ verify cfg f = true) →
    s.answers = .data [0x0A, 0x0D] :: .data [0x06] :: .data [0x06] :: .data h :: (fs.map .data ++ rest) →
    l = (walkPages cfg (le16 h 2).toNat 0 fs (s.rev, [])).2 →
    ∃ t u, exec .pollArc s = .next t ∧ runSteps (2 * fs.length + 8) t = .next u ∧
      u = { s with
        rlist := l, rev := u.rev, result := u.result, selValid := u.selValid, selIndex := u.selIndex, wmDate := u.wmDate,
        wmTime := u.wmTime, pages := le16 h 0, pidx := BitVec.ofNat 16 (fs.length - 1), seq := .done, code := .ok,
        done := true, answers := rest, rxLog := u.rxLog, txLog := u.txLog } ∧
      u.rev = (walkPages cfg (le16 h 2).toNat 0 fs (s.rev, [])).1 ∧
      (∀ j e, Selected (s.wmDate, s.wmTime) l j e →
        u.selValid = true ∧ u.selIndex = BitVec.ofNat 19 j ∧ u.result = .arc e ∧
        (u.wmDate, u.wmTime) = stampOf e.record) ∧
      ((∀ e ∈ l, ¬ Newer (stampOf e.record) (s.wmDate, s.wmTime)) →
        u.selValid = false ∧ u.selIndex = 0 ∧ u.result = .none ∧ (u.wmDate, u.wmTime) = (s.wmDate, s.wmTime)) ∧
      ((∃ j e, Selected (s.wmDate, s.wmTime) l j e) ∨ ∀ e ∈ l, ¬ Newer (stampOf e.record) (s.wmDate, s.wmTime))

/-- POLL_ARC on three attempts that each give no result, in any mixture: a wrong watermark acknowledgement, a header that fails its
CRC, or a page that fails it after any number of good ones, each after up to two failed wake attempts and two wrong confirmations.
Two pauses, NO_NEW_RECORDS, RLIST = [], RESULT = NONE, WM unchanged; PROG is the last attempt's; a revision that a good page fixed
stays (43_download.md R270 to R275, R277, R280, R281, R285; 42_handshake.md R231, R233). That a wake answer too short is a timeout
and one too long is cut is log 2. -/
def Obligations.PollArcGivesUp : Prop :=
  ∀ (s : State) (a1 a2 a3 : BadAttempt) (rest : List RxAnswer) (wm : List Byte), Ready s →
    a1.Ok cfg → a2.Ok cfg → a3.Ok cfg →
    s.answers = a1.answers ++ a2.answers ++ a3.answers ++ rest →
    wm = le16bytes s.wmDate ++ le16bytes s.wmTime ++ be16bytes (crc cfg (le16bytes s.wmDate ++ le16bytes s.wmTime)) →
    ∃ t u, exec .pollArc s = .next t ∧ runSteps (a1.steps + 1 + a2.steps + 1 + a3.steps) t = .next u ∧
      u = { s with
        result := .none, rlist := [], selValid := false, selIndex := 0
        pages := a3.ending.prog.1, pidx := a3.ending.prog.2
        rev := a3.ending.rev cfg (a2.ending.rev cfg (a1.ending.rev cfg s.rev))
        seq := .aborted, code := .noNewRecords, done := true, answers := rest, rxLog := u.rxLog
        txLog := s.txLog ++ a1.sent wm ++ a2.sent wm ++ a3.sent wm }

/-! ## Pages, slots, selection (43_download.md) -/

/-- The walk of a page: the slots from `offset` on page 0 and from 0 on later pages up to slot 4, slot `s` at byte `1 + 52 s`,
none when the offset is 5 or more (R276). -/
def Obligations.BlobWalk : Prop :=
  ∀ (f : List Byte) (i offset : Nat) (x : Rev × List ArcEntry),
    walkPage cfg f i offset x =
      ((List.range 5).filter fun s => decide ((if i = 0 then offset else 0) ≤ s)).foldl
        (fun x s => slotRecord cfg f (1 + 52 * s) x) x

/-- One slot, whatever the layouts are: an unknown revision is probed at the discriminator and kept, the record is decoded under
the flag, a slot whose two raw stamps are the sentinel is discarded and any other is appended (R277). -/
def Obligations.SlotRule : Prop :=
  ∀ (c : Config) (f : List Byte) (q : Nat) (rev rev' : Rev) (l : List ArcEntry), LayoutsOk c →
    (rev ≠ .unknown → rev' = rev) →
    (rev = .unknown → rev' = if u8 f (q + c.discOffset) = 0x00 then .b else .a) →
    (slotRecord c f q (rev, l)).1 = rev' ∧
    (le16 f q = c.sentinel ∧ le16 f (q + 2) = c.sentinel → (slotRecord c f q (rev, l)).2 = l) ∧
    (¬ (le16 f q = c.sentinel ∧ le16 f (q + 2) = c.sentinel) →
      ∃ e, (slotRecord c f q (rev, l)).2 = l ++ [e] ∧ stampOf e.record = (le16 f q, le16 f (q + 2)) ∧
        (rev' = .b → e = { rev := .b, record := decodeB c f q }) ∧
        (rev' = .a → e = { rev := .a, record := decodeA c f q }))

/-- The selection finds exactly the first record of the maximal pair above the watermark, and none when no record is newer
(R282). -/
def Obligations.NewestSelection : Prop :=
  ∀ (wm : Half × Half) (l : List ArcEntry),
    (∀ j e, newest wm l = some (j, e) ↔ Selected wm l j e) ∧
    (newest wm l = none ↔ ∀ e ∈ l, ¬ Newer (stampOf e.record) wm)

/-! ## Rules of the whole machine -/

/-- The watermark moves only by a host write to WM while idle, or in the step that ends a POLL_ARC with OK, there strictly upward
and to the pair of the record it selects (10_state.md R35, 43_download.md R284). -/
def Obligations.WatermarkOnlyAdvances : Prop :=
  ∀ s u : State, step s = .next u → resetNext s = false → (u.wmDate, u.wmTime) ≠ (s.wmDate, s.wmTime) →
    (∃ v, s.task = none ∧ s.inputs.head? = some (.host (.write .word 0x010 v)) ∧
      (u.wmDate, u.wmTime) = (v.extractLsb' 16 16, v.extractLsb' 0 16)) ∨
    (∃ t e, s.task = some t ∧ t.op = .pollArc ∧ u.task = none ∧ u.done = true ∧ u.code = .ok ∧ u.selValid = true ∧
      e ∈ u.rlist ∧ u.result = .arc e ∧ (u.wmDate, u.wmTime) = stampOf e.record ∧
      Newer (u.wmDate, u.wmTime) (s.wmDate, s.wmTime))

/-- The revision flag is written only by the probe, in a DEC_ARC or at the end of a page's acknowledgement, and once it is known
nothing but reset changes it (10_state.md R36, 70_reset_and_hazards.md R382). -/
def Obligations.RevisionSticky : Prop :=
  ∀ s u : State, step s = .next u → resetNext s = false →
    (s.rev ≠ .unknown → u.rev = s.rev) ∧
    (u.rev ≠ s.rev → acceptedOp s = some 0x13 ∨ ∃ t, s.task = some t ∧ t.point = .tx .pageAck)

/-- A running operation reads and writes neither ACC, nor FB, nor VALID, and leaves LEN, OVR, CMD and LASTOP alone: a step of it
from a state with other contents there differs only there (40_crc.md R139, 10_state.md R34, 20_memory.md R73). -/
def Obligations.SequencerIgnoresHostState : Prop :=
  ∀ s : State, s.task ≠ none → s.inputs = [] →
    ∃ u, step s = .next u ∧ u.acc = s.acc ∧ u.fb = s.fb ∧ u.valid = s.valid ∧ u.len = s.len ∧ u.ovr = s.ovr ∧
      u.cmd = s.cmd ∧ u.lastop = s.lastop ∧
      ∀ (acc : Half) (fb : Memory) (valid : Bool) (len : BitVec 10),
        step { s with acc := acc, fb := fb, valid := valid, len := len } =
          .next { u with acc := acc, fb := fb, valid := valid, len := len }

/-- Which steps change ACC, VALID, LEN, FB, CMD and LASTOP (10_state.md R32, R34, R37, R46; 20_memory.md R73, R75). -/
def Obligations.RegisterWriters : Prop :=
  ∀ s u : State, step s = .next u → resetNext s = false →
    (u.acc ≠ s.acc → ∃ op, acceptedOp s = some op ∧ 0x01 ≤ op ∧ op ≤ 0x05) ∧
    (u.valid ≠ s.valid → acceptedOp s = some 0x04) ∧
    (u.len ≠ s.len → acceptedOp s = some 0x05 ∨
      ∃ v, s.task = none ∧ s.inputs.head? = some (.host (.write .word 0x00C v)) ∧ u.len = v.extractLsb' 0 10) ∧
    (u.fb ≠ s.fb → acceptedOp s = some 0x05 ∨
      ∃ a v, s.task = none ∧ s.inputs.head? = some (.host (.write .byte a v)) ∧ 0x100 ≤ a.toNat ∧ a.toNat < 0x300) ∧
    (u.cmd ≠ s.cmd ∨ u.lastop ≠ s.lastop → ∃ w, acceptedWord s = some w ∧ u.cmd = w ∧ u.lastop = w.extractLsb' 0 8)

/-- How BUSY, DONE and OVR are set and cleared (10_state.md R33, R46). OVR is set by a host write while an operation runs, to any
register (44_control.md R321; log 7). -/
def Obligations.FlagRules : Prop :=
  ∀ s u : State, Inv s → step s = .next u → resetNext s = false →
    (s.busy = false → u.busy = true → u.done = false ∧ ∃ op, acceptedOp s = some op ∧ 0x20 ≤ op ∧ op ≤ 0x25) ∧
    (s.busy = true → u.busy = false → u.done = true) ∧
    (s.done = false → u.done = true → u.busy = false) ∧
    (s.done = true → u.done = false → ∃ w, acceptedWord s = some w) ∧
    (s.ovr = false → u.ovr = true → s.busy = true ∧ ∃ w a v, s.inputs.head? = some (.host (.write w a v))) ∧
    (s.ovr = true → u.ovr = false → ∃ w, acceptedWord s = some w)

/-- Who raises each outcome code (60_exceptions.md R340 to R348). -/
def Obligations.OutcomeCodes : Prop :=
  ∀ s u : State, Inv s → step s = .next u → resetNext s = false → u.code ≠ s.code →
    u.done = true ∧ u.task = none ∧
    (u.code = .deviceUnreachable → s.task ≠ none) ∧
    (u.code = .noNewRecords → ∃ t, s.task = some t ∧ t.op = .pollArc ∧ t.kd = 3) ∧
    (u.code = .noResult → ∃ t, s.task = some t ∧ t.op = .download) ∧
    (u.code = .decodeFail → ∃ op, acceptedOp s = some op ∧ 0x10 ≤ op ∧ op ≤ 0x15) ∧
    (u.code = .illegalOp → ∃ w r, acceptedWord s = some w ∧ decodeWord w = .error r) ∧
    (u.code = .cancelled → s.task ≠ none ∧ s.abortReq = true) ∧
    (u.code = .bufOverflow → acceptedOp s = some 0x05 ∧ 510 < s.len.toNat)

/-- The serial channel: a step transmits at most the bytes of one Tx point, or ends one Rx, never both; an answer has exactly the
bytes asked for (20_memory.md R81, R82, R88). When a Tx enters TXLOG is log 6; the record of the Rx is the model's own, outlives finish and holds an
abandoned Rx without an answer (log 9). -/
def Obligations.SerialChannel : Prop :=
  ∀ s u : State, step s = .next u → resetNext s = false →
    (u.txLog = s.txLog ∨
      ∃ t p, s.task = some t ∧ t.point = .tx p ∧ u.txLog = s.txLog ++ [txBytesOf cfg s t p] ∧ u.rxLog = s.rxLog) ∧
    (u.rxLog = s.rxLog ∨
      ∃ t p r, s.task = some t ∧ t.point = .rx p ∧ u.rxLog = s.rxLog ++ [r] ∧ u.txLog = s.txLog ∧
        (r.n, r.timeout) = rxRequest cfg t p ∧ ∀ bs, r.answer = some (.data bs) → bs.length = r.n)

/-- The reset state satisfies the invariant. -/
def Obligations.ResetInv : Prop := Inv State.reset

/-- Every step keeps the invariant: the frame buffer's canonical form and a legal LEN; at most REC_CAP records, all of the
session's revision, SEL inside RLIST or 0; no abort request and a resting phase while idle; a running operation at one of its own
points under that point's phase, its counters within their bounds, only verified frames acknowledged (10_state.md R36 to R45,
43_download.md R270 to R277); its receive history the end of the channel's, which is the model's own record (log 9). That a counter is in its
bounds before its loop begins is the model's start value (log 11). -/
def Obligations.StepKeepsInv : Prop := ∀ s u : State, Inv s → step s = .next u → Inv u

/-- Every operation ends: from any state of the invariant with an operation running and no further input, finitely many steps,
within one bound for all, reach its `finish`, whatever the device answers (70_reset_and_hazards.md R392). -/
def Obligations.EveryOperationEnds : Prop :=
  ∀ s : State, Inv s → s.task ≠ none → s.inputs = [] →
    ∃ n u, n ≤ 400000 ∧ runSteps n s = .next u ∧ u.task = none ∧ u.done = true

/-! ## Host accesses (20_memory.md R70 to R73, 44_control.md R321, R324) -/

/-- STATUS is readable at any time, each field at its place, every other bit 0, with the encodings of CODE, REV and SEQ
(10_state.md R31, R33, R36, R41; 60_exceptions.md R340). -/
def Obligations.StatusRead : Prop :=
  (∀ s : State, ∃ w : Word, hostAccess (.read .word 0x004) s = .next { s with rdata := some (.word w) } ∧
    w.getLsbD 0 = s.busy ∧ w.getLsbD 1 = s.done ∧ w.getLsbD 2 = s.valid ∧ w.getLsbD 3 = s.ovr ∧
    w.extractLsb' 4 4 = s.code.bits ∧ w.extractLsb' 8 2 = s.rev.bits ∧ w.extractLsb' 10 6 = 0 ∧
    w.extractLsb' 16 8 = s.lastop ∧ w.extractLsb' 24 4 = s.seq.bits ∧ w.extractLsb' 28 4 = 0) ∧
  [Code.ok, .deviceUnreachable, .noNewRecords, .noResult, .decodeFail, .illegalOp, .cancelled, .bufOverflow].map
    (fun c => c.bits.toNat) = [0, 1, 2, 3, 4, 5, 6, 7] ∧
  [Rev.unknown, .a, .b].map (fun r => r.bits.toNat) = [0, 1, 2] ∧
  [Phase.idle, .wake, .send, .headerSent, .headerReceived, .pageLoop, .dataRead, .pause, .done, .aborted].map
    (fun p => p.bits.toNat) = [0, 1, 2, 3, 4, 5, 6, 7, 8, 9]

/-- The other registers while idle: each field at its place, every other bit 0 (10_state.md R31, R34 to R40). RESULT_MAP is open in
the spec: that RESULT and RLIST are read whole, as typed values, through two accesses of their own is the model's (log 13). -/
def Obligations.RegisterReads : Prop :=
  ∀ s : State, s.task = none → s.rlist.length ≤ 327675 →
    ∃ crcw lenw wmw cntw selw prgw : Word,
      hostAccess (.read .word 0x008) s = .next { s with rdata := some (.word crcw) } ∧
      crcw.extractLsb' 0 16 = s.acc ∧ crcw.extractLsb' 16 16 = 0 ∧
      hostAccess (.read .word 0x00C) s = .next { s with rdata := some (.word lenw) } ∧
      lenw.extractLsb' 0 10 = s.len ∧ lenw.extractLsb' 10 22 = 0 ∧
      hostAccess (.read .word 0x010) s = .next { s with rdata := some (.word wmw) } ∧
      wmw.extractLsb' 0 16 = s.wmTime ∧ wmw.extractLsb' 16 16 = s.wmDate ∧
      hostAccess (.read .word 0x014) s = .next { s with rdata := some (.word cntw) } ∧ cntw.toNat = s.rlist.length ∧
      hostAccess (.read .word 0x018) s = .next { s with rdata := some (.word selw) } ∧
      selw.extractLsb' 0 19 = s.selIndex ∧ selw.extractLsb' 19 12 = 0 ∧ selw.getLsbD 31 = s.selValid ∧
      hostAccess (.read .word 0x01C) s = .next { s with rdata := some (.word prgw) } ∧
      prgw.extractLsb' 0 16 = s.pages ∧ prgw.extractLsb' 16 16 = s.pidx ∧
      hostAccess .readResult s = .next { s with rdata := some (.result s.result) } ∧
      hostAccess .readRlist s = .next { s with rdata := some (.rlist s.rlist) }

/-- No read has a side effect on the block: only the value the host receives, and while an operation runs the count of the
model's free values, change (20_memory.md R86, 44_control.md R324; the draw count is the model's, log 3). -/
def Obligations.ReadsHaveNoSideEffect : Prop :=
  ∀ (s u : State) (a : Access), (∀ w addr v, a ≠ .write w addr v) → hostAccess a s = .next u →
    u = { s with rdata := u.rdata, draws := u.draws } ∧ (s.task = none → u.draws = s.draws)

/-- Host register writes: WM and FBLEN while idle, an illegal length ignored, read-only registers ignored, none of them touching
anything else; while an operation runs each of these writes is lost with OVR set (10_state.md R35, R37; 44_control.md R321). That
a lost write to a read-only register sets OVR is R321 and D28 against the lists of R33 and R46 (log 7). -/
def Obligations.RegisterWrites : Prop :=
  ∀ (s : State) (v : Word),
    (s.task = none →
      hostAccess (.write .word 0x010 v) s =
        .next { s with wmDate := v.extractLsb' 16 16, wmTime := v.extractLsb' 0 16 } ∧
      (v.toNat % 1024 ≤ 512 →
        hostAccess (.write .word 0x00C v) s = .next { s with len := BitVec.ofNat 10 (v.toNat % 1024) }) ∧
      (512 < v.toNat % 1024 → hostAccess (.write .word 0x00C v) s = .next s) ∧
      ∀ a : BitVec 12, a.toNat ∈ [0x004, 0x008, 0x014, 0x018, 0x01C] → hostAccess (.write .word a v) s = .next s) ∧
    (s.task ≠ none →
      ∀ a : BitVec 12, a.toNat ∈ [0x004, 0x008, 0x00C, 0x010, 0x014, 0x018, 0x01C] →
        hostAccess (.write .word a v) s = .next { s with ovr := true })

/-- Byte access to the frame buffer: while idle a write stores its byte and changes no other, a read returns the byte; while an
operation runs a write is lost with OVR set and a read returns some byte (20_memory.md R73). That the busy read uses up one draw is
the model's (log 3), and so is that a write stores bits 7 to 0 of the word written (log 8). -/
def Obligations.FrameBufferAccess : Prop :=
  ∀ (s : State) (a : BitVec 12) (i : Nat), a.toNat = 0x100 + i → i < 512 →
    (s.task = none →
      (∀ v : Word, ∃ u, hostAccess (.write .byte a v) s = .next u ∧ u = { s with fb := u.fb } ∧
        Memory.read u.fb i = some (v.extractLsb' 0 8) ∧ ∀ j, j ≠ i → Memory.read u.fb j = Memory.read s.fb j) ∧
      ∀ b, Memory.read s.fb i = some b → hostAccess (.read .byte a) s = .next { s with rdata := some (.byte b) }) ∧
    (s.task ≠ none →
      (∀ v : Word, hostAccess (.write .byte a v) s = .next { s with ovr := true }) ∧
      ∃ b, hostAccess (.read .byte a) s = .next { s with rdata := some (.byte b), draws := s.draws + 1 })

/-- The address map: registers only as aligned words and FB only as bytes; any other access there, or over the edge of a reserved
range, is outside the interface and refused, whatever runs; a reserved address reads 0 and ignores a write, which sets OVR while an
operation runs (20_memory.md R71, R72; 44_control.md R321, R324; 93_implementation_defined.md items 3 and 4). That any width may
reach a reserved address and where such an access ends is the model's (log 8); OVR there is R321 and D28 (log 7); the draw of a busy
register read is log 3. -/
def Obligations.AddressMap : Prop :=
  ∀ (s : State) (w : Width) (a : BitVec 12) (v : Word),
    (a.toNat < 0x020 → (w ≠ .word ∨ a.toNat % 4 ≠ 0) →
      hostAccess (.read w a) s = .refused .outsideInterface ∧
      hostAccess (.write w a v) s = .refused .outsideInterface) ∧
    (a.toNat < 0x020 → w = .word → a.toNat % 4 = 0 → ∃ x n, hostAccess (.read w a) s =
      .next { s with rdata := some (.word x), draws := n } ∧ (s.task = none → n = s.draws)) ∧
    (0x100 ≤ a.toNat → a.toNat < 0x300 → w ≠ .byte →
      hostAccess (.read w a) s = .refused .outsideInterface ∧
      hostAccess (.write w a v) s = .refused .outsideInterface) ∧
    ((0x020 ≤ a.toNat ∧ a.toNat < 0x100 ∧ 0x100 < a.toNat + w.bytes) ∨ (0x300 ≤ a.toNat ∧ 0x1000 < a.toNat + w.bytes) →
      hostAccess (.read w a) s = .refused .outsideInterface ∧
      hostAccess (.write w a v) s = .refused .outsideInterface) ∧
    ((0x020 ≤ a.toNat ∧ a.toNat + w.bytes ≤ 0x100) ∨ (0x300 ≤ a.toNat ∧ a.toNat + w.bytes ≤ 0x1000) →
      (s.task = none → hostAccess (.write w a v) s = .next s) ∧
      (s.task ≠ none → hostAccess (.write w a v) s = .next { s with ovr := true }) ∧
      hostAccess (.read w a) s = .next { s with rdata := some (if w = .byte then .byte 0 else .word 0) })

/-- After reset every byte of FB is unwritten, and whatever reads an unwritten byte faults: the CRC operations over `FB[0..LEN)`,
the decode operations over their input, a host read (70_reset_and_hazards.md R390; 93_implementation_defined.md item 1). -/
def Obligations.UnwrittenByteFaults : Prop :=
  (∀ i, Memory.read State.reset.fb i = none) ∧
  ∀ s : State, s.task = none →
    (SomeUnwritten s 0 s.len.toNat →
      exec .crcBuf s = .fault .unwrittenFb ∧ exec .verify s = .fault .unwrittenFb ∧
      (s.len.toNat + 2 ≤ 512 → exec .crcAppend s = .fault .unwrittenFb)) ∧
    (∀ p, p + 99 ≤ s.len.toNat → SomeUnwritten s p 99 → exec (.decSnap p) s = .fault .unwrittenFb) ∧
    (∀ p, p + 52 ≤ s.len.toNat → SomeUnwritten s p 52 →
      exec (.decArca p) s = .fault .unwrittenFb ∧ exec (.decArcb p) s = .fault .unwrittenFb ∧
      exec (.decArc p) s = .fault .unwrittenFb) ∧
    (∀ p, p + 6 ≤ s.len.toNat → SomeUnwritten s p 6 → exec (.decHdr p) s = .fault .unwrittenFb) ∧
    (∀ p, p + 267 ≤ s.len.toNat → SomeUnwritten s p 267 → exec (.decPage p) s = .fault .unwrittenFb) ∧
    ∀ (a : BitVec 12) (i : Nat), a.toNat = 0x100 + i → i < 512 → Memory.read s.fb i = none →
      hostAccess (.read .byte a) s = .fault .unwrittenFb
end

