-- ==== Sys2Proof/Laws/Crc.lean ====
section
/-! SUPPORT. The CRC over joined byte sequences, and frame validity (40_crc.md R131, R132). -/

namespace Sys2Proof.Laws

open Sys2Proof.Machine

@[simp] theorem crcFrom_nil (poly acc : Half) : crcFrom poly acc [] = acc := rfl

@[simp] theorem crcFrom_cons (poly acc : Half) (b : Byte) (bs : List Byte) :
    crcFrom poly acc (b :: bs) = crcFrom poly (crcStep poly acc b) bs := rfl

theorem crcFrom_append (poly acc : Half) (xs ys : List Byte) :
    crcFrom poly acc (xs ++ ys) = crcFrom poly (crcFrom poly acc xs) ys := List.foldl_append

/-- A frame is valid exactly when it is not empty and its CRC is 0 (R132). -/
theorem verify_iff (c : Config) (bs : List Byte) : verify c bs = true ↔ bs ≠ [] ∧ crc c bs = 0x0000 := by
  cases bs <;> simp [verify]

end Sys2Proof.Laws
end

