-- ==== Sys2Proof/Laws/FrameBuffer.lean ====
section
/-! SUPPORT. The laws of the frame buffer's storage: read after write, and that every operation keeps the canonical form. -/

namespace Sys2Proof.Laws

open Sys2Proof.Machine

@[simp] theorem read_nil (j : Nat) : Memory.read [] j = none := rfl

theorem read_cons (i j : Nat) (b : Byte) (m : Memory) :
    Memory.read ((i, b) :: m) j = if j = i then some b else Memory.read m j := by
  unfold Memory.read
  rw [List.lookup_cons]
  by_cases h : j = i
  · simp [h]
  · simp [h, beq_eq_false_iff_ne.mpr h]

/-- A read after a write: the written byte at its index, the old content anywhere else. -/
@[simp] theorem read_write (m : Memory) (i j : Nat) (v : Byte) :
    Memory.read (Memory.write m i v) j = if j = i then some v else Memory.read m j := by
  induction m with
  | nil => simp [Memory.write, read_cons]
  | cons c rest ih =>
    obtain ⟨k, b⟩ := c
    by_cases h1 : i < k
    · simp [Memory.write, h1, read_cons]
    · by_cases h2 : i = k
      · subst h2
        simp only [Memory.write, Nat.lt_irrefl, if_false, if_true, read_cons]
        split <;> rfl
      · simp only [Memory.write, h1, h2, if_false, read_cons, ih]
        by_cases hj : j = k
        · have : ¬ k = i := fun h => h2 h.symm
          simp [hj, this]
        · simp [hj]

/-- Every index of a write's result is the written one or was there before. -/
theorem mem_write {m : Memory} {i : Nat} {v : Byte} {x : Host.Cell} (h : x ∈ Memory.write m i v) :
    x = (i, v) ∨ x ∈ m := by
  induction m with
  | nil => simpa [Memory.write] using h
  | cons c rest ih =>
    obtain ⟨k, b⟩ := c
    simp only [Memory.write] at h
    split at h
    · simpa using h
    · split at h
      · rcases List.mem_cons.mp h with h | h
        · exact .inl h
        · exact .inr (List.mem_cons_of_mem _ h)
      · rcases List.mem_cons.mp h with h | h
        · exact .inr (h ▸ List.mem_cons_self)
        · exact (ih h).imp id (List.mem_cons_of_mem _)

/-- The head of a canonical memory lies below a bound that a write above it keeps. -/
theorem wf_cons_write {m : Memory} {k i : Nat} {b v : Byte} (h : Memory.wf ((k, b) :: m) = true) (hk : k < i)
    (hw : Memory.wf (Memory.write m i v) = true) : Memory.wf ((k, b) :: Memory.write m i v) = true := by
  cases m with
  | nil => simp [Memory.write, Memory.wf, hk]
  | cons c rest =>
    obtain ⟨j, d⟩ := c
    simp only [Memory.wf, Bool.and_eq_true, decide_eq_true_eq] at h
    simp only [Memory.write] at hw ⊢
    split
    · simp_all [Memory.wf]
    · split <;> simp_all [Memory.wf]

/-- A write keeps the canonical form. -/
theorem write_wf {m : Memory} (i : Nat) (v : Byte) (h : Memory.wf m = true) : Memory.wf (Memory.write m i v) = true := by
  induction m with
  | nil => rfl
  | cons c rest ih =>
    obtain ⟨k, b⟩ := c
    have hrest : Memory.wf rest = true := by
      cases rest with
      | nil => rfl
      | cons d rest => simp only [Memory.wf, Bool.and_eq_true] at h; exact h.2
    by_cases h1 : i < k
    · simp only [Memory.write, h1, if_true, Memory.wf, decide_true, Bool.true_and]
      exact h
    · by_cases h2 : i = k
      · subst h2
        simp only [Memory.write, Nat.lt_irrefl, if_false, if_true]
        cases rest with
        | nil => rfl
        | cons d rest => simpa [Memory.wf] using h
      · simp only [Memory.write, h1, h2, if_false]
        exact wf_cons_write h (by omega) (ih hrest)

/-- `MemWrite` keeps the canonical form. -/
theorem memWrite_wf {m : Memory} (a : Nat) (bs : List Byte) (h : Memory.wf m = true) :
    Memory.wf (memWrite m a bs) = true := by
  induction bs generalizing m a with
  | nil => exact h
  | cons b bs ih => exact ih (a + 1) (write_wf a b h)

/-- Every index of `MemWrite`'s result lies in the written range or was there before. -/
theorem mem_memWrite {m : Memory} {a : Nat} {bs : List Byte} {x : Host.Cell} (h : x ∈ memWrite m a bs) :
    (a ≤ x.1 ∧ x.1 < a + bs.length) ∨ x ∈ m := by
  induction bs generalizing m a with
  | nil => exact .inr h
  | cons b bs ih =>
    rcases ih (m := Memory.write m a b) (a := a + 1) h with h | h
    · exact .inl ⟨by omega, by simp only [List.length_cons]; omega⟩
    · rcases mem_write h with h | h
      · subst h
        exact .inl ⟨Nat.le_refl _, by simp only [List.length_cons]; omega⟩
      · exact .inr h

/-- A read after `MemWrite`: the written byte inside the range, the old content outside it. -/
theorem read_memWrite (m : Memory) (a j : Nat) (bs : List Byte) :
    Memory.read (memWrite m a bs) j =
      if a ≤ j ∧ j < a + bs.length then bs[j - a]? else Memory.read m j := by
  induction bs generalizing m a with
  | nil => simp only [memWrite, List.length_nil, Nat.add_zero]; rw [if_neg (by omega)]
  | cons b bs ih =>
    rw [memWrite, ih, read_write, List.length_cons]
    by_cases h1 : j = a
    · subst h1; simp
    · by_cases h2 : a + 1 ≤ j ∧ j < a + 1 + bs.length
      · rw [if_pos h2, if_pos (by omega), show j - a = (j - (a + 1)) + 1 by omega]; simp
      · rw [if_neg h2, if_neg h1, if_neg (by omega)]

/-- `MemRead` gives as many bytes as it was asked for. -/
theorem memRead_length {m : Memory} {a n : Nat} {bs : List Byte} (h : memRead m a n = some bs) : bs.length = n := by
  induction n generalizing a bs with
  | zero => simp [memRead] at h; simp [← h]
  | succ n ih =>
    simp only [memRead] at h
    split at h
    · rename_i b bs' _ hr
      cases h
      simp [ih hr]
    · cases h

/-- `MemRead` reads byte `i` of its range at index `a + i`. -/
theorem memRead_get {m : Memory} {a n : Nat} {bs : List Byte} (h : memRead m a n = some bs) {i : Nat} (hi : i < n) :
    Memory.read m (a + i) = bs[i]? := by
  induction n generalizing a bs i with
  | zero => omega
  | succ n ih =>
    simp only [memRead] at h
    split at h
    · rename_i b bs' hb hr
      cases h
      cases i with
      | zero => simpa using hb
      | succ i => simpa [Nat.add_assoc, Nat.add_comm 1 i] using ih hr (i := i) (by omega)
    · cases h

/-- `MemRead` has an answer when every byte of the range is written. -/
theorem memRead_of_written {m : Memory} {a n : Nat} (h : ∀ i, i < n → (Memory.read m (a + i)).isSome = true) :
    ∃ bs, memRead m a n = some bs := by
  induction n generalizing a with
  | zero => exact ⟨[], rfl⟩
  | succ n ih =>
    obtain ⟨b, hb⟩ := Option.isSome_iff_exists.mp (h 0 (by omega))
    obtain ⟨bs, hbs⟩ := ih (a := a + 1) fun i hi => by
      have := h (i + 1) (by omega)
      rwa [show a + (i + 1) = a + 1 + i by omega] at this
    exact ⟨b :: bs, by simp only [memRead, Nat.add_zero] at hb ⊢; rw [hb, hbs]⟩

/-- The frame buffer after reset is in canonical form. -/
theorem reset_fb_wf : Memory.wf State.reset.fb = true := rfl

/-- What `withBytes` can do: go on with the bytes, or fault on an unwritten one. -/
theorem withBytes_next {s t : State} {a n : Nat} {k : List Byte → Answer} (h : withBytes s a n k = .next t) :
    ∃ bs, memRead s.fb a n = some bs ∧ k bs = .next t := by
  unfold withBytes at h
  split at h
  · rename_i bs hbs; exact ⟨bs, hbs, h⟩
  · cases h

theorem withBytes_of_read {s : State} {a n : Nat} {bs : List Byte} (k : List Byte → Answer)
    (h : memRead s.fb a n = some bs) : withBytes s a n k = k bs := by
  simp [withBytes, h]

end Sys2Proof.Laws
end

