-- ==== Sys2Proof/Laws/State.lean ====
section
/-! SUPPORT. One lemma per field per named update of the state, so that no proof unfolds an update. -/

namespace Sys2Proof.Laws

open Sys2Proof.Machine

/-! ## accept -/

@[simp] theorem accept_cmd (w : Word) (s : State) : (accept w s).cmd = w := rfl
@[simp] theorem accept_done (w : Word) (s : State) : (accept w s).done = false := rfl
@[simp] theorem accept_valid (w : Word) (s : State) : (accept w s).valid = s.valid := rfl
@[simp] theorem accept_ovr (w : Word) (s : State) : (accept w s).ovr = false := rfl
@[simp] theorem accept_code (w : Word) (s : State) : (accept w s).code = s.code := rfl
@[simp] theorem accept_rev (w : Word) (s : State) : (accept w s).rev = s.rev := rfl
@[simp] theorem accept_lastop (w : Word) (s : State) : (accept w s).lastop = w.extractLsb' 0 8 := rfl
@[simp] theorem accept_seq (w : Word) (s : State) : (accept w s).seq = s.seq := rfl
@[simp] theorem accept_acc (w : Word) (s : State) : (accept w s).acc = s.acc := rfl
@[simp] theorem accept_len (w : Word) (s : State) : (accept w s).len = s.len := rfl
@[simp] theorem accept_wmDate (w : Word) (s : State) : (accept w s).wmDate = s.wmDate := rfl
@[simp] theorem accept_wmTime (w : Word) (s : State) : (accept w s).wmTime = s.wmTime := rfl
@[simp] theorem accept_selValid (w : Word) (s : State) : (accept w s).selValid = s.selValid := rfl
@[simp] theorem accept_selIndex (w : Word) (s : State) : (accept w s).selIndex = s.selIndex := rfl
@[simp] theorem accept_pages (w : Word) (s : State) : (accept w s).pages = s.pages := rfl
@[simp] theorem accept_pidx (w : Word) (s : State) : (accept w s).pidx = s.pidx := rfl
@[simp] theorem accept_fb (w : Word) (s : State) : (accept w s).fb = s.fb := rfl
@[simp] theorem accept_result (w : Word) (s : State) : (accept w s).result = s.result := rfl
@[simp] theorem accept_rlist (w : Word) (s : State) : (accept w s).rlist = s.rlist := rfl
@[simp] theorem accept_abortReq (w : Word) (s : State) : (accept w s).abortReq = s.abortReq := rfl
@[simp] theorem accept_task (w : Word) (s : State) : (accept w s).task = s.task := rfl
@[simp] theorem accept_txLog (w : Word) (s : State) : (accept w s).txLog = s.txLog := rfl
@[simp] theorem accept_rxLog (w : Word) (s : State) : (accept w s).rxLog = s.rxLog := rfl
@[simp] theorem accept_inputs (w : Word) (s : State) : (accept w s).inputs = s.inputs := rfl
@[simp] theorem accept_answers (w : Word) (s : State) : (accept w s).answers = s.answers := rfl
@[simp] theorem accept_draws (w : Word) (s : State) : (accept w s).draws = s.draws := rfl
@[simp] theorem accept_rdata (w : Word) (s : State) : (accept w s).rdata = s.rdata := rfl
@[simp] theorem accept_busy (w : Word) (s : State) : (accept w s).busy = s.busy := rfl

/-! ## finish -/

@[simp] theorem finish_cmd (c : Code) (s : State) : (finish c s).cmd = s.cmd := rfl
@[simp] theorem finish_done (c : Code) (s : State) : (finish c s).done = true := rfl
@[simp] theorem finish_valid (c : Code) (s : State) : (finish c s).valid = s.valid := rfl
@[simp] theorem finish_ovr (c : Code) (s : State) : (finish c s).ovr = s.ovr := rfl
@[simp] theorem finish_code (c : Code) (s : State) : (finish c s).code = c := rfl
@[simp] theorem finish_rev (c : Code) (s : State) : (finish c s).rev = s.rev := rfl
@[simp] theorem finish_lastop (c : Code) (s : State) : (finish c s).lastop = s.lastop := rfl
@[simp] theorem finish_seq (c : Code) (s : State) : (finish c s).seq = (if s.busy then (if c = .ok then .done else .aborted) else s.seq) := rfl
@[simp] theorem finish_acc (c : Code) (s : State) : (finish c s).acc = s.acc := rfl
@[simp] theorem finish_len (c : Code) (s : State) : (finish c s).len = s.len := rfl
@[simp] theorem finish_wmDate (c : Code) (s : State) : (finish c s).wmDate = s.wmDate := rfl
@[simp] theorem finish_wmTime (c : Code) (s : State) : (finish c s).wmTime = s.wmTime := rfl
@[simp] theorem finish_selValid (c : Code) (s : State) : (finish c s).selValid = s.selValid := rfl
@[simp] theorem finish_selIndex (c : Code) (s : State) : (finish c s).selIndex = s.selIndex := rfl
@[simp] theorem finish_pages (c : Code) (s : State) : (finish c s).pages = s.pages := rfl
@[simp] theorem finish_pidx (c : Code) (s : State) : (finish c s).pidx = s.pidx := rfl
@[simp] theorem finish_fb (c : Code) (s : State) : (finish c s).fb = s.fb := rfl
@[simp] theorem finish_result (c : Code) (s : State) : (finish c s).result = s.result := rfl
@[simp] theorem finish_rlist (c : Code) (s : State) : (finish c s).rlist = s.rlist := rfl
@[simp] theorem finish_abortReq (c : Code) (s : State) : (finish c s).abortReq = false := rfl
@[simp] theorem finish_task (c : Code) (s : State) : (finish c s).task = none := rfl
@[simp] theorem finish_txLog (c : Code) (s : State) : (finish c s).txLog = s.txLog := rfl
@[simp] theorem finish_rxLog (c : Code) (s : State) : (finish c s).rxLog = s.rxLog := rfl
@[simp] theorem finish_inputs (c : Code) (s : State) : (finish c s).inputs = s.inputs := rfl
@[simp] theorem finish_answers (c : Code) (s : State) : (finish c s).answers = s.answers := rfl
@[simp] theorem finish_draws (c : Code) (s : State) : (finish c s).draws = s.draws := rfl
@[simp] theorem finish_rdata (c : Code) (s : State) : (finish c s).rdata = s.rdata := rfl
@[simp] theorem finish_busy (c : Code) (s : State) : (finish c s).busy = false := rfl

/-! ## loseWrite -/

@[simp] theorem loseWrite_cmd (s : State) : (loseWrite s).cmd = s.cmd := rfl
@[simp] theorem loseWrite_done (s : State) : (loseWrite s).done = s.done := rfl
@[simp] theorem loseWrite_valid (s : State) : (loseWrite s).valid = s.valid := rfl
@[simp] theorem loseWrite_ovr (s : State) : (loseWrite s).ovr = true := rfl
@[simp] theorem loseWrite_code (s : State) : (loseWrite s).code = s.code := rfl
@[simp] theorem loseWrite_rev (s : State) : (loseWrite s).rev = s.rev := rfl
@[simp] theorem loseWrite_lastop (s : State) : (loseWrite s).lastop = s.lastop := rfl
@[simp] theorem loseWrite_seq (s : State) : (loseWrite s).seq = s.seq := rfl
@[simp] theorem loseWrite_acc (s : State) : (loseWrite s).acc = s.acc := rfl
@[simp] theorem loseWrite_len (s : State) : (loseWrite s).len = s.len := rfl
@[simp] theorem loseWrite_wmDate (s : State) : (loseWrite s).wmDate = s.wmDate := rfl
@[simp] theorem loseWrite_wmTime (s : State) : (loseWrite s).wmTime = s.wmTime := rfl
@[simp] theorem loseWrite_selValid (s : State) : (loseWrite s).selValid = s.selValid := rfl
@[simp] theorem loseWrite_selIndex (s : State) : (loseWrite s).selIndex = s.selIndex := rfl
@[simp] theorem loseWrite_pages (s : State) : (loseWrite s).pages = s.pages := rfl
@[simp] theorem loseWrite_pidx (s : State) : (loseWrite s).pidx = s.pidx := rfl
@[simp] theorem loseWrite_fb (s : State) : (loseWrite s).fb = s.fb := rfl
@[simp] theorem loseWrite_result (s : State) : (loseWrite s).result = s.result := rfl
@[simp] theorem loseWrite_rlist (s : State) : (loseWrite s).rlist = s.rlist := rfl
@[simp] theorem loseWrite_abortReq (s : State) : (loseWrite s).abortReq = s.abortReq := rfl
@[simp] theorem loseWrite_task (s : State) : (loseWrite s).task = s.task := rfl
@[simp] theorem loseWrite_txLog (s : State) : (loseWrite s).txLog = s.txLog := rfl
@[simp] theorem loseWrite_rxLog (s : State) : (loseWrite s).rxLog = s.rxLog := rfl
@[simp] theorem loseWrite_inputs (s : State) : (loseWrite s).inputs = s.inputs := rfl
@[simp] theorem loseWrite_answers (s : State) : (loseWrite s).answers = s.answers := rfl
@[simp] theorem loseWrite_draws (s : State) : (loseWrite s).draws = s.draws := rfl
@[simp] theorem loseWrite_rdata (s : State) : (loseWrite s).rdata = s.rdata := rfl
@[simp] theorem loseWrite_busy (s : State) : (loseWrite s).busy = s.busy := rfl

/-! ## clearSel -/

@[simp] theorem clearSel_cmd (s : State) : (clearSel s).cmd = s.cmd := rfl
@[simp] theorem clearSel_done (s : State) : (clearSel s).done = s.done := rfl
@[simp] theorem clearSel_valid (s : State) : (clearSel s).valid = s.valid := rfl
@[simp] theorem clearSel_ovr (s : State) : (clearSel s).ovr = s.ovr := rfl
@[simp] theorem clearSel_code (s : State) : (clearSel s).code = s.code := rfl
@[simp] theorem clearSel_rev (s : State) : (clearSel s).rev = s.rev := rfl
@[simp] theorem clearSel_lastop (s : State) : (clearSel s).lastop = s.lastop := rfl
@[simp] theorem clearSel_seq (s : State) : (clearSel s).seq = s.seq := rfl
@[simp] theorem clearSel_acc (s : State) : (clearSel s).acc = s.acc := rfl
@[simp] theorem clearSel_len (s : State) : (clearSel s).len = s.len := rfl
@[simp] theorem clearSel_wmDate (s : State) : (clearSel s).wmDate = s.wmDate := rfl
@[simp] theorem clearSel_wmTime (s : State) : (clearSel s).wmTime = s.wmTime := rfl
@[simp] theorem clearSel_selValid (s : State) : (clearSel s).selValid = false := rfl
@[simp] theorem clearSel_selIndex (s : State) : (clearSel s).selIndex = 0 := rfl
@[simp] theorem clearSel_pages (s : State) : (clearSel s).pages = s.pages := rfl
@[simp] theorem clearSel_pidx (s : State) : (clearSel s).pidx = s.pidx := rfl
@[simp] theorem clearSel_fb (s : State) : (clearSel s).fb = s.fb := rfl
@[simp] theorem clearSel_result (s : State) : (clearSel s).result = s.result := rfl
@[simp] theorem clearSel_rlist (s : State) : (clearSel s).rlist = s.rlist := rfl
@[simp] theorem clearSel_abortReq (s : State) : (clearSel s).abortReq = s.abortReq := rfl
@[simp] theorem clearSel_task (s : State) : (clearSel s).task = s.task := rfl
@[simp] theorem clearSel_txLog (s : State) : (clearSel s).txLog = s.txLog := rfl
@[simp] theorem clearSel_rxLog (s : State) : (clearSel s).rxLog = s.rxLog := rfl
@[simp] theorem clearSel_inputs (s : State) : (clearSel s).inputs = s.inputs := rfl
@[simp] theorem clearSel_answers (s : State) : (clearSel s).answers = s.answers := rfl
@[simp] theorem clearSel_draws (s : State) : (clearSel s).draws = s.draws := rfl
@[simp] theorem clearSel_rdata (s : State) : (clearSel s).rdata = s.rdata := rfl
@[simp] theorem clearSel_busy (s : State) : (clearSel s).busy = s.busy := rfl

/-! ## clearProg -/

@[simp] theorem clearProg_cmd (s : State) : (clearProg s).cmd = s.cmd := rfl
@[simp] theorem clearProg_done (s : State) : (clearProg s).done = s.done := rfl
@[simp] theorem clearProg_valid (s : State) : (clearProg s).valid = s.valid := rfl
@[simp] theorem clearProg_ovr (s : State) : (clearProg s).ovr = s.ovr := rfl
@[simp] theorem clearProg_code (s : State) : (clearProg s).code = s.code := rfl
@[simp] theorem clearProg_rev (s : State) : (clearProg s).rev = s.rev := rfl
@[simp] theorem clearProg_lastop (s : State) : (clearProg s).lastop = s.lastop := rfl
@[simp] theorem clearProg_seq (s : State) : (clearProg s).seq = s.seq := rfl
@[simp] theorem clearProg_acc (s : State) : (clearProg s).acc = s.acc := rfl
@[simp] theorem clearProg_len (s : State) : (clearProg s).len = s.len := rfl
@[simp] theorem clearProg_wmDate (s : State) : (clearProg s).wmDate = s.wmDate := rfl
@[simp] theorem clearProg_wmTime (s : State) : (clearProg s).wmTime = s.wmTime := rfl
@[simp] theorem clearProg_selValid (s : State) : (clearProg s).selValid = s.selValid := rfl
@[simp] theorem clearProg_selIndex (s : State) : (clearProg s).selIndex = s.selIndex := rfl
@[simp] theorem clearProg_pages (s : State) : (clearProg s).pages = 0 := rfl
@[simp] theorem clearProg_pidx (s : State) : (clearProg s).pidx = 0 := rfl
@[simp] theorem clearProg_fb (s : State) : (clearProg s).fb = s.fb := rfl
@[simp] theorem clearProg_result (s : State) : (clearProg s).result = s.result := rfl
@[simp] theorem clearProg_rlist (s : State) : (clearProg s).rlist = s.rlist := rfl
@[simp] theorem clearProg_abortReq (s : State) : (clearProg s).abortReq = s.abortReq := rfl
@[simp] theorem clearProg_task (s : State) : (clearProg s).task = s.task := rfl
@[simp] theorem clearProg_txLog (s : State) : (clearProg s).txLog = s.txLog := rfl
@[simp] theorem clearProg_rxLog (s : State) : (clearProg s).rxLog = s.rxLog := rfl
@[simp] theorem clearProg_inputs (s : State) : (clearProg s).inputs = s.inputs := rfl
@[simp] theorem clearProg_answers (s : State) : (clearProg s).answers = s.answers := rfl
@[simp] theorem clearProg_draws (s : State) : (clearProg s).draws = s.draws := rfl
@[simp] theorem clearProg_rdata (s : State) : (clearProg s).rdata = s.rdata := rfl
@[simp] theorem clearProg_busy (s : State) : (clearProg s).busy = s.busy := rfl

/-! ## transmit -/

@[simp] theorem transmit_cmd (bs : List Byte) (s : State) : (transmit bs s).cmd = s.cmd := rfl
@[simp] theorem transmit_done (bs : List Byte) (s : State) : (transmit bs s).done = s.done := rfl
@[simp] theorem transmit_valid (bs : List Byte) (s : State) : (transmit bs s).valid = s.valid := rfl
@[simp] theorem transmit_ovr (bs : List Byte) (s : State) : (transmit bs s).ovr = s.ovr := rfl
@[simp] theorem transmit_code (bs : List Byte) (s : State) : (transmit bs s).code = s.code := rfl
@[simp] theorem transmit_rev (bs : List Byte) (s : State) : (transmit bs s).rev = s.rev := rfl
@[simp] theorem transmit_lastop (bs : List Byte) (s : State) : (transmit bs s).lastop = s.lastop := rfl
@[simp] theorem transmit_seq (bs : List Byte) (s : State) : (transmit bs s).seq = s.seq := rfl
@[simp] theorem transmit_acc (bs : List Byte) (s : State) : (transmit bs s).acc = s.acc := rfl
@[simp] theorem transmit_len (bs : List Byte) (s : State) : (transmit bs s).len = s.len := rfl
@[simp] theorem transmit_wmDate (bs : List Byte) (s : State) : (transmit bs s).wmDate = s.wmDate := rfl
@[simp] theorem transmit_wmTime (bs : List Byte) (s : State) : (transmit bs s).wmTime = s.wmTime := rfl
@[simp] theorem transmit_selValid (bs : List Byte) (s : State) : (transmit bs s).selValid = s.selValid := rfl
@[simp] theorem transmit_selIndex (bs : List Byte) (s : State) : (transmit bs s).selIndex = s.selIndex := rfl
@[simp] theorem transmit_pages (bs : List Byte) (s : State) : (transmit bs s).pages = s.pages := rfl
@[simp] theorem transmit_pidx (bs : List Byte) (s : State) : (transmit bs s).pidx = s.pidx := rfl
@[simp] theorem transmit_fb (bs : List Byte) (s : State) : (transmit bs s).fb = s.fb := rfl
@[simp] theorem transmit_result (bs : List Byte) (s : State) : (transmit bs s).result = s.result := rfl
@[simp] theorem transmit_rlist (bs : List Byte) (s : State) : (transmit bs s).rlist = s.rlist := rfl
@[simp] theorem transmit_abortReq (bs : List Byte) (s : State) : (transmit bs s).abortReq = s.abortReq := rfl
@[simp] theorem transmit_task (bs : List Byte) (s : State) : (transmit bs s).task = s.task := rfl
@[simp] theorem transmit_txLog (bs : List Byte) (s : State) : (transmit bs s).txLog = s.txLog ++ [bs] := rfl
@[simp] theorem transmit_rxLog (bs : List Byte) (s : State) : (transmit bs s).rxLog = s.rxLog := rfl
@[simp] theorem transmit_inputs (bs : List Byte) (s : State) : (transmit bs s).inputs = s.inputs := rfl
@[simp] theorem transmit_answers (bs : List Byte) (s : State) : (transmit bs s).answers = s.answers := rfl
@[simp] theorem transmit_draws (bs : List Byte) (s : State) : (transmit bs s).draws = s.draws := rfl
@[simp] theorem transmit_rdata (bs : List Byte) (s : State) : (transmit bs s).rdata = s.rdata := rfl
@[simp] theorem transmit_busy (bs : List Byte) (s : State) : (transmit bs s).busy = s.busy := rfl

/-! ## deliver -/

@[simp] theorem deliver_cmd (d : ReadData) (s : State) : (deliver d s).cmd = s.cmd := rfl
@[simp] theorem deliver_done (d : ReadData) (s : State) : (deliver d s).done = s.done := rfl
@[simp] theorem deliver_valid (d : ReadData) (s : State) : (deliver d s).valid = s.valid := rfl
@[simp] theorem deliver_ovr (d : ReadData) (s : State) : (deliver d s).ovr = s.ovr := rfl
@[simp] theorem deliver_code (d : ReadData) (s : State) : (deliver d s).code = s.code := rfl
@[simp] theorem deliver_rev (d : ReadData) (s : State) : (deliver d s).rev = s.rev := rfl
@[simp] theorem deliver_lastop (d : ReadData) (s : State) : (deliver d s).lastop = s.lastop := rfl
@[simp] theorem deliver_seq (d : ReadData) (s : State) : (deliver d s).seq = s.seq := rfl
@[simp] theorem deliver_acc (d : ReadData) (s : State) : (deliver d s).acc = s.acc := rfl
@[simp] theorem deliver_len (d : ReadData) (s : State) : (deliver d s).len = s.len := rfl
@[simp] theorem deliver_wmDate (d : ReadData) (s : State) : (deliver d s).wmDate = s.wmDate := rfl
@[simp] theorem deliver_wmTime (d : ReadData) (s : State) : (deliver d s).wmTime = s.wmTime := rfl
@[simp] theorem deliver_selValid (d : ReadData) (s : State) : (deliver d s).selValid = s.selValid := rfl
@[simp] theorem deliver_selIndex (d : ReadData) (s : State) : (deliver d s).selIndex = s.selIndex := rfl
@[simp] theorem deliver_pages (d : ReadData) (s : State) : (deliver d s).pages = s.pages := rfl
@[simp] theorem deliver_pidx (d : ReadData) (s : State) : (deliver d s).pidx = s.pidx := rfl
@[simp] theorem deliver_fb (d : ReadData) (s : State) : (deliver d s).fb = s.fb := rfl
@[simp] theorem deliver_result (d : ReadData) (s : State) : (deliver d s).result = s.result := rfl
@[simp] theorem deliver_rlist (d : ReadData) (s : State) : (deliver d s).rlist = s.rlist := rfl
@[simp] theorem deliver_abortReq (d : ReadData) (s : State) : (deliver d s).abortReq = s.abortReq := rfl
@[simp] theorem deliver_task (d : ReadData) (s : State) : (deliver d s).task = s.task := rfl
@[simp] theorem deliver_txLog (d : ReadData) (s : State) : (deliver d s).txLog = s.txLog := rfl
@[simp] theorem deliver_rxLog (d : ReadData) (s : State) : (deliver d s).rxLog = s.rxLog := rfl
@[simp] theorem deliver_inputs (d : ReadData) (s : State) : (deliver d s).inputs = s.inputs := rfl
@[simp] theorem deliver_answers (d : ReadData) (s : State) : (deliver d s).answers = s.answers := rfl
@[simp] theorem deliver_draws (d : ReadData) (s : State) : (deliver d s).draws = s.draws := rfl
@[simp] theorem deliver_rdata (d : ReadData) (s : State) : (deliver d s).rdata = some d := rfl
@[simp] theorem deliver_busy (d : ReadData) (s : State) : (deliver d s).busy = s.busy := rfl

/-! ## deliverDraw -/

@[simp] theorem deliverDraw_cmd (d : ReadData) (s : State) : (deliverDraw d s).cmd = s.cmd := rfl
@[simp] theorem deliverDraw_done (d : ReadData) (s : State) : (deliverDraw d s).done = s.done := rfl
@[simp] theorem deliverDraw_valid (d : ReadData) (s : State) : (deliverDraw d s).valid = s.valid := rfl
@[simp] theorem deliverDraw_ovr (d : ReadData) (s : State) : (deliverDraw d s).ovr = s.ovr := rfl
@[simp] theorem deliverDraw_code (d : ReadData) (s : State) : (deliverDraw d s).code = s.code := rfl
@[simp] theorem deliverDraw_rev (d : ReadData) (s : State) : (deliverDraw d s).rev = s.rev := rfl
@[simp] theorem deliverDraw_lastop (d : ReadData) (s : State) : (deliverDraw d s).lastop = s.lastop := rfl
@[simp] theorem deliverDraw_seq (d : ReadData) (s : State) : (deliverDraw d s).seq = s.seq := rfl
@[simp] theorem deliverDraw_acc (d : ReadData) (s : State) : (deliverDraw d s).acc = s.acc := rfl
@[simp] theorem deliverDraw_len (d : ReadData) (s : State) : (deliverDraw d s).len = s.len := rfl
@[simp] theorem deliverDraw_wmDate (d : ReadData) (s : State) : (deliverDraw d s).wmDate = s.wmDate := rfl
@[simp] theorem deliverDraw_wmTime (d : ReadData) (s : State) : (deliverDraw d s).wmTime = s.wmTime := rfl
@[simp] theorem deliverDraw_selValid (d : ReadData) (s : State) : (deliverDraw d s).selValid = s.selValid := rfl
@[simp] theorem deliverDraw_selIndex (d : ReadData) (s : State) : (deliverDraw d s).selIndex = s.selIndex := rfl
@[simp] theorem deliverDraw_pages (d : ReadData) (s : State) : (deliverDraw d s).pages = s.pages := rfl
@[simp] theorem deliverDraw_pidx (d : ReadData) (s : State) : (deliverDraw d s).pidx = s.pidx := rfl
@[simp] theorem deliverDraw_fb (d : ReadData) (s : State) : (deliverDraw d s).fb = s.fb := rfl
@[simp] theorem deliverDraw_result (d : ReadData) (s : State) : (deliverDraw d s).result = s.result := rfl
@[simp] theorem deliverDraw_rlist (d : ReadData) (s : State) : (deliverDraw d s).rlist = s.rlist := rfl
@[simp] theorem deliverDraw_abortReq (d : ReadData) (s : State) : (deliverDraw d s).abortReq = s.abortReq := rfl
@[simp] theorem deliverDraw_task (d : ReadData) (s : State) : (deliverDraw d s).task = s.task := rfl
@[simp] theorem deliverDraw_txLog (d : ReadData) (s : State) : (deliverDraw d s).txLog = s.txLog := rfl
@[simp] theorem deliverDraw_rxLog (d : ReadData) (s : State) : (deliverDraw d s).rxLog = s.rxLog := rfl
@[simp] theorem deliverDraw_inputs (d : ReadData) (s : State) : (deliverDraw d s).inputs = s.inputs := rfl
@[simp] theorem deliverDraw_answers (d : ReadData) (s : State) : (deliverDraw d s).answers = s.answers := rfl
@[simp] theorem deliverDraw_draws (d : ReadData) (s : State) : (deliverDraw d s).draws = s.draws + 1 := rfl
@[simp] theorem deliverDraw_rdata (d : ReadData) (s : State) : (deliverDraw d s).rdata = some d := rfl
@[simp] theorem deliverDraw_busy (d : ReadData) (s : State) : (deliverDraw d s).busy = s.busy := rfl

/-! ## writeWm -/

@[simp] theorem writeWm_cmd (v : Word) (s : State) : (writeWm v s).cmd = s.cmd := rfl
@[simp] theorem writeWm_done (v : Word) (s : State) : (writeWm v s).done = s.done := rfl
@[simp] theorem writeWm_valid (v : Word) (s : State) : (writeWm v s).valid = s.valid := rfl
@[simp] theorem writeWm_ovr (v : Word) (s : State) : (writeWm v s).ovr = s.ovr := rfl
@[simp] theorem writeWm_code (v : Word) (s : State) : (writeWm v s).code = s.code := rfl
@[simp] theorem writeWm_rev (v : Word) (s : State) : (writeWm v s).rev = s.rev := rfl
@[simp] theorem writeWm_lastop (v : Word) (s : State) : (writeWm v s).lastop = s.lastop := rfl
@[simp] theorem writeWm_seq (v : Word) (s : State) : (writeWm v s).seq = s.seq := rfl
@[simp] theorem writeWm_acc (v : Word) (s : State) : (writeWm v s).acc = s.acc := rfl
@[simp] theorem writeWm_len (v : Word) (s : State) : (writeWm v s).len = s.len := rfl
@[simp] theorem writeWm_wmDate (v : Word) (s : State) : (writeWm v s).wmDate = v.extractLsb' 16 16 := rfl
@[simp] theorem writeWm_wmTime (v : Word) (s : State) : (writeWm v s).wmTime = v.extractLsb' 0 16 := rfl
@[simp] theorem writeWm_selValid (v : Word) (s : State) : (writeWm v s).selValid = s.selValid := rfl
@[simp] theorem writeWm_selIndex (v : Word) (s : State) : (writeWm v s).selIndex = s.selIndex := rfl
@[simp] theorem writeWm_pages (v : Word) (s : State) : (writeWm v s).pages = s.pages := rfl
@[simp] theorem writeWm_pidx (v : Word) (s : State) : (writeWm v s).pidx = s.pidx := rfl
@[simp] theorem writeWm_fb (v : Word) (s : State) : (writeWm v s).fb = s.fb := rfl
@[simp] theorem writeWm_result (v : Word) (s : State) : (writeWm v s).result = s.result := rfl
@[simp] theorem writeWm_rlist (v : Word) (s : State) : (writeWm v s).rlist = s.rlist := rfl
@[simp] theorem writeWm_abortReq (v : Word) (s : State) : (writeWm v s).abortReq = s.abortReq := rfl
@[simp] theorem writeWm_task (v : Word) (s : State) : (writeWm v s).task = s.task := rfl
@[simp] theorem writeWm_txLog (v : Word) (s : State) : (writeWm v s).txLog = s.txLog := rfl
@[simp] theorem writeWm_rxLog (v : Word) (s : State) : (writeWm v s).rxLog = s.rxLog := rfl
@[simp] theorem writeWm_inputs (v : Word) (s : State) : (writeWm v s).inputs = s.inputs := rfl
@[simp] theorem writeWm_answers (v : Word) (s : State) : (writeWm v s).answers = s.answers := rfl
@[simp] theorem writeWm_draws (v : Word) (s : State) : (writeWm v s).draws = s.draws := rfl
@[simp] theorem writeWm_rdata (v : Word) (s : State) : (writeWm v s).rdata = s.rdata := rfl
@[simp] theorem writeWm_busy (v : Word) (s : State) : (writeWm v s).busy = s.busy := rfl

/-! ## resetBlock and withFetchWord -/

@[simp] theorem resetBlock_inputs (s : State) : (resetBlock s).inputs = s.inputs := rfl
@[simp] theorem resetBlock_answers (s : State) : (resetBlock s).answers = s.answers := rfl
@[simp] theorem resetBlock_draws (s : State) : (resetBlock s).draws = s.draws := rfl
@[simp] theorem resetBlock_rdata (s : State) : (resetBlock s).rdata = s.rdata := rfl
@[simp] theorem resetBlock_task (s : State) : (resetBlock s).task = none := rfl
@[simp] theorem withFetchWord_task (s : State) (n w : Nat) : (s.withFetchWord n w).task = s.task := rfl
@[simp] theorem withFetchWord_inputs (s : State) (n w : Nat) :
    (s.withFetchWord n w).inputs = .host (.write .word 0x000 (tableWord n w)) :: s.inputs := rfl

/-! ## BUSY -/

theorem busy_eq_true {s : State} : s.busy = true ↔ ∃ t, s.task = some t := by
  simp [State.busy, Option.isSome_iff_exists]

theorem busy_eq_false {s : State} : s.busy = false ↔ s.task = none := by
  simp [State.busy]

/-- `finish` of a host-only operation leaves SEQ (60_exceptions.md R345). -/
theorem finish_seq_idle {s : State} (c : Code) (h : s.busy = false) : (finish c s).seq = s.seq := by
  simp [h]

/-- `finish` of a serial operation sets SEQ to DONE or ABORTED (60_exceptions.md R345). -/
theorem finish_seq_busy {s : State} (c : Code) (h : s.busy = true) :
    (finish c s).seq = if c = .ok then .done else .aborted := by
  simp [h]

end Sys2Proof.Laws
end

