-- ==== Sys2Proof/Laws/Operations.lean ====
section
/-! SUPPORT. What the shared operations of the host-only families can do, said once: completion while idle, the frame of a decode
operation, bytes of the frame buffer. -/

namespace Sys2Proof.Laws

open Sys2Proof.Machine

/-! ## Completion (60_exceptions.md R345) -/

theorem busy_of_idle {s : State} (h : s.task = none) : s.busy = false := by simp [State.busy, h]

theorem busy_of_task {s : State} {t : Task} (h : s.task = some t) : s.busy = true := by simp [State.busy, h]

theorem busy_iff (s : State) : s.busy = true ↔ s.task ≠ none := by
  cases h : s.task <;> simp [State.busy, h]

/-- A host-only operation's completion leaves SEQ alone. -/
theorem finish_of_idle {s : State} (code : Code) (h : s.task = none) :
    finish code s = { s with code := code, done := true, abortReq := false } := by
  simp [finish, State.busy, h]

/-- A serial operation's completion sets SEQ and ends the operation. -/
theorem finish_of_task {s : State} {t : Task} (code : Code) (h : s.task = some t) :
    finish code s = { s with
      code := code, done := true, abortReq := false, task := none, seq := if code = .ok then .done else .aborted } := by
  simp [finish, State.busy, h]

/-! ## Bytes of the frame buffer (20_memory.md R74) -/

/-- `MemRead` answers the bytes the buffer holds. -/
theorem memRead_of_holds {s : State} {a : Nat} {bs : List Byte} (h : FbHolds s a bs) :
    memRead s.fb a bs.length = some bs := by
  induction bs generalizing a with
  | nil => rfl
  | cons b bs ih =>
    have h0 : Memory.read s.fb a = some b := by simpa using h 0 (by simp)
    have ht : FbHolds s (a + 1) bs := fun i hi => by
      have := h (i + 1) (by simp only [List.length_cons]; omega)
      rwa [show a + (i + 1) = a + 1 + i by omega, List.getElem?_cons_succ] at this
    simp only [List.length_cons, memRead, h0, ih ht]

theorem memRead_of_someUnwritten {s : State} {a n : Nat} (h : SomeUnwritten s a n) : memRead s.fb a n = none := by
  obtain ⟨i, hi, hr⟩ := h
  cases hm : memRead s.fb a n with
  | none => rfl
  | some bs =>
    have := memRead_get hm hi
    rw [hr, eq_comm, List.getElem?_eq_none_iff, memRead_length hm] at this
    omega

theorem withBytes_of_holds {s : State} {a : Nat} {bs : List Byte} (k : List Byte → Answer) (h : FbHolds s a bs) :
    withBytes s a bs.length k = k bs := withBytes_of_read k (memRead_of_holds h)

theorem withBytes_of_someUnwritten {s : State} {a n : Nat} (k : List Byte → Answer) (h : SomeUnwritten s a n) :
    withBytes s a n k = .fault .unwrittenFb := by
  simp [withBytes, memRead_of_someUnwritten h]

/-! ## The frame of a decode operation (41_record_codec.md R186) -/

theorem decodeOp_short {s : State} {p size : Nat} (k : List Byte → State → State) (h : s.lenNat < p + size) :
    decodeOp s p size k = .next (finish .decodeFail { s with result := .none }) := by
  have hf : fits p size (State.lenNat { s with result := .none }) = false := decide_eq_false (Nat.not_le.mpr h)
  simp only [decodeOp, hf]
  rfl

theorem decodeOp_of_holds {s : State} {p : Nat} {bs : List Byte} (k : List Byte → State → State)
    (h : p + bs.length ≤ s.lenNat) (hb : FbHolds s p bs) :
    decodeOp s p bs.length k = .next (finish .ok (k bs { s with result := .none })) := by
  have hb' : FbHolds { s with result := .none } p bs := hb
  have hf : fits p bs.length (State.lenNat { s with result := .none }) = true := decide_eq_true h
  simp only [decodeOp, hf, if_true]
  exact withBytes_of_holds (s := { s with result := .none }) _ hb'

end Sys2Proof.Laws
end

