-- ==== Sys2Proof/Laws/Params.lean ====
section
/-! SUPPORT. The parameter values of the hardware, one lemma each (00_scope.md R7). -/

namespace Sys2Proof.Laws

open Sys2Proof.Machine

@[simp] theorem cfg_poly : cfg.poly = 0x1021 := rfl
@[simp] theorem cfg_crcWidth : cfg.crcWidth = 16 := rfl
@[simp] theorem cfg_crcInit : cfg.crcInit = 0x0000 := rfl
@[simp] theorem cfg_retries : cfg.retries = 3 := rfl
@[simp] theorem cfg_tAck : cfg.tAck = 1200 := rfl
@[simp] theorem cfg_tOk : cfg.tOk = 5000 := rfl
@[simp] theorem cfg_tData : cfg.tData = 5000 := rfl
@[simp] theorem cfg_pRetry : cfg.pRetry = 1000 := rfl
@[simp] theorem cfg_snapSize : cfg.snapSize = 99 := rfl
@[simp] theorem cfg_arcSize : cfg.arcSize = 52 := rfl
@[simp] theorem cfg_hdrSize : cfg.hdrSize = 6 := rfl
@[simp] theorem cfg_pageSize : cfg.pageSize = 267 := rfl
@[simp] theorem cfg_blobSize : cfg.blobSize = 260 := rfl
@[simp] theorem cfg_slots : cfg.slots = 5 := rfl
@[simp] theorem cfg_padSize : cfg.padSize = 4 := rfl
@[simp] theorem cfg_sentinel : cfg.sentinel = 0xFFFF := rfl
@[simp] theorem cfg_discOffset : cfg.discOffset = 42 := rfl
@[simp] theorem cfg_tempSigned : cfg.tempSigned = true := rfl
@[simp] theorem cfg_unconfirmedPolicy : cfg.unconfirmedPolicy = .escalate := rfl
@[simp] theorem cfg_fbSize : cfg.fbSize = 512 := rfl
@[simp] theorem cfg_recCap : cfg.recCap = 327675 := rfl

end Sys2Proof.Laws
end

