-- ==== Sys2Proof/Laws/PerInstr.lean ====
section
/-! SUPPORT. Laws stated for every operation, one lemma per constructor. -/

namespace Sys2Proof.Laws.OpcodeRow

/-- The word of an operation matches its row of the opcode map under the mask 0x000000FF (30_encoding.md R102). -/
def Statement (i : Instr) : Prop := encode i &&& 0x000000FF#32 = i.opcode.setWidth 32

/-- The argument fields lie above OP. -/
theorem args_above_op (x y : BitVec 32) (o : BitVec 8) :
    ((x <<< 16) ||| (y <<< 8) ||| o.setWidth 32) &&& 0x000000FF#32 = o.setWidth 32 := by
  ext j hj
  simp only [BitVec.getElem_and, BitVec.getElem_or, BitVec.getElem_shiftLeft, BitVec.getElem_setWidth]
  have hm : (0x000000FF#32)[j] = decide (j < 8) := by
    revert j
    decide
  rw [hm]
  by_cases h : j < 8
  · simp [h, show j < 16 by omega]
  · simp [h]
    exact BitVec.getLsbD_of_ge _ _ (by omega)

theorem nop : Statement .nop := args_above_op _ _ _
theorem crcClr : Statement .crcClr := args_above_op _ _ _
theorem crcByte (b : Nat) : Statement (.crcByte b) := args_above_op _ _ _
theorem crcBuf : Statement .crcBuf := args_above_op _ _ _
theorem verify : Statement .verify := args_above_op _ _ _
theorem crcAppend : Statement .crcAppend := args_above_op _ _ _
theorem decSnap (p : Nat) : Statement (.decSnap p) := args_above_op _ _ _
theorem decArca (p : Nat) : Statement (.decArca p) := args_above_op _ _ _
theorem decArcb (p : Nat) : Statement (.decArcb p) := args_above_op _ _ _
theorem decArc (p : Nat) : Statement (.decArc p) := args_above_op _ _ _
theorem decHdr (p : Nat) : Statement (.decHdr p) := args_above_op _ _ _
theorem decPage (p : Nat) : Statement (.decPage p) := args_above_op _ _ _
theorem wake : Statement .wake := args_above_op _ _ _
theorem setper (n : Nat) : Statement (.setper n) := args_above_op _ _ _
theorem clrlog : Statement .clrlog := args_above_op _ _ _
theorem pollRt : Statement .pollRt := args_above_op _ _ _
theorem download : Statement .download := args_above_op _ _ _
theorem pollArc : Statement .pollArc := args_above_op _ _ _
theorem abort : Statement .abort := args_above_op _ _ _

end Sys2Proof.Laws.OpcodeRow
end

