-- ==== Sys2Proof/Laws/Sequencer.lean ====
section
/-! SUPPORT. What the sequencer's shared operations can do, said once: entering a suspension point, the answers of an Rx, the
revision probe, and the registers no serial operation writes. -/

namespace Sys2Proof.Laws

open Sys2Proof.Machine

/-! ## Entering a suspension point (44_control.md R322) -/

theorem enter_of_no_abort {p : Point} {t : Task} {s : State} (h : s.abortReq = false) :
    enter p t s = { s with task := some { t with point := p } } := by
  simp [enter, h]

theorem enter_of_abort {p : Point} {t : Task} {s : State} (h : s.abortReq = true) :
    enter p t s = finish .cancelled { s with task := some { t with point := p } } := by
  simp [enter, h]

/-- Entering a point either waits there or ends the operation with CANCELLED. -/
theorem enter_cases (p : Point) (t : Task) (s : State) :
    (s.abortReq = false ∧ enter p t s = { s with task := some { t with point := p } }) ∨
    (s.abortReq = true ∧ enter p t s = finish .cancelled { s with task := some { t with point := p } }) := by
  rcases Bool.eq_false_or_eq_true s.abortReq with h | h
  · exact .inr ⟨h, enter_of_abort h⟩
  · exact .inl ⟨h, enter_of_no_abort h⟩

/-! ## What the sequencer never writes (10_state.md R34, R46; 20_memory.md R73; 40_crc.md R139) -/

/-- The registers, the frame buffer and the model's own fields that no procedure of the sequencer writes. -/
structure Kept (s s' : State) : Prop where
  cmd : s'.cmd = s.cmd
  valid : s'.valid = s.valid
  ovr : s'.ovr = s.ovr
  lastop : s'.lastop = s.lastop
  acc : s'.acc = s.acc
  len : s'.len = s.len
  fb : s'.fb = s.fb
  inputs : s'.inputs = s.inputs
  rdata : s'.rdata = s.rdata

theorem Kept.rfl' (s : State) : Kept s s := ⟨rfl, rfl, rfl, rfl, rfl, rfl, rfl, rfl, rfl⟩

theorem Kept.then {s s' s'' : State} (h : Kept s s') (h' : Kept s' s'') : Kept s s'' :=
  ⟨h'.cmd.trans h.cmd, h'.valid.trans h.valid, h'.ovr.trans h.ovr, h'.lastop.trans h.lastop, h'.acc.trans h.acc,
    h'.len.trans h.len, h'.fb.trans h.fb, h'.inputs.trans h.inputs, h'.rdata.trans h.rdata⟩

theorem finish_kept (c : Code) (s : State) : Kept s (finish c s) := ⟨rfl, rfl, rfl, rfl, rfl, rfl, rfl, rfl, rfl⟩

theorem enter_kept (p : Point) (t : Task) (s : State) : Kept s (enter p t s) := by
  rcases enter_cases p t s with ⟨-, h⟩ | ⟨-, h⟩ <;> rw [h] <;> exact ⟨rfl, rfl, rfl, rfl, rfl, rfl, rfl, rfl, rfl⟩

theorem selectNewest_kept (l : List ArcEntry) (s : State) : Kept s (selectNewest l s) := by
  unfold selectNewest
  split <;> exact ⟨rfl, rfl, rfl, rfl, rfl, rfl, rfl, rfl, rfl⟩

theorem transmit_kept (bs : List Byte) (s : State) : Kept s (transmit bs s) :=
  ⟨rfl, rfl, rfl, rfl, rfl, rfl, rfl, rfl, rfl⟩

theorem receive_kept (n : Nat) (m : Millis) (s : State) : Kept s (receive n m s).2 := by
  unfold receive nextAnswer
  cases s.answers <;> exact ⟨rfl, rfl, rfl, rfl, rfl, rfl, rfl, rfl, rfl⟩

theorem startWake_kept (t : Task) (s : State) : Kept s (startWake t s) := by
  obtain h := enter_kept (.tx .wake) { t with kw := 1 } { s with seq := .wake }
  exact ⟨h.1, h.2, h.3, h.4, h.5, h.6, h.7, h.8, h.9⟩

theorem startSend_kept (t : Task) (s : State) : Kept s (startSend t s) := by
  obtain h := enter_kept (.tx .send) { t with ks := 1 } { s with seq := .send }
  exact ⟨h.1, h.2, h.3, h.4, h.5, h.6, h.7, h.8, h.9⟩

theorem startAttempt_kept (t : Task) (s : State) : Kept s (startAttempt t s) := by
  obtain h := startWake_kept { t with records := [] } (clearProg s)
  exact ⟨h.1, h.2, h.3, h.4, h.5, h.6, h.7, h.8, h.9⟩

theorem startSnapshotRead_kept (t : Task) (s : State) : Kept s (startSnapshotRead t s) := by
  obtain h := enter_kept (.rx .snapshot) t { s with seq := .dataRead }
  exact ⟨h.1, h.2, h.3, h.4, h.5, h.6, h.7, h.8, h.9⟩

theorem startPause_kept (p : PausePoint) (t : Task) (s : State) : Kept s (startPause p t s) := by
  obtain h := enter_kept (.pause p) t { s with seq := .pause }
  exact ⟨h.1, h.2, h.3, h.4, h.5, h.6, h.7, h.8, h.9⟩

theorem attemptDone_kept (c : Config) (t : Task) (r : Attempt) (s : State) : Kept s (attemptDone c t r s) := by
  unfold attemptDone
  split
  · exact finish_kept _ s
  · split
    · obtain h := selectNewest_kept _ { s with rlist := _ }
      exact ⟨h.1, h.2, h.3, h.4, h.5, h.6, h.7, h.8, h.9⟩
    · exact ⟨rfl, rfl, rfl, rfl, rfl, rfl, rfl, rfl, rfl⟩
  · split
    · split
      · exact startPause_kept _ t s
      · exact finish_kept _ s
    · exact finish_kept _ s

theorem commandDone_kept (c : Config) (t : Task) (r : CmdResult) (s : State) : Kept s (commandDone c t r s) := by
  unfold commandDone
  split
  · exact finish_kept _ s
  · exact finish_kept _ s
  · exact finish_kept _ s
  · exact startSnapshotRead_kept _ s
  · exact finish_kept _ s
  · exact enter_kept _ _ s
  · exact attemptDone_kept c t _ s
  · exact enter_kept _ _ s
  · exact attemptDone_kept c t _ s

theorem wakeDone_kept (c : Config) (t : Task) (r : CmdResult) (s : State) : Kept s (wakeDone c t r s) := by
  unfold wakeDone
  split
  · exact finish_kept _ s
  · exact startSend_kept t s
  · exact commandDone_kept c t _ s

theorem pageLoop_kept (c : Config) (i : Nat) (t : Task) (s : State) : Kept s (pageLoop c i t s) := by
  unfold pageLoop
  split
  · obtain h := enter_kept (.rx .page) t { s with seq := .pageLoop, pidx := BitVec.ofNat 16 i }
    exact ⟨h.1, h.2, h.3, h.4, h.5, h.6, h.7, h.8, h.9⟩
  · exact attemptDone_kept c t _ s

theorem afterTx_kept (c : Config) (t : Task) (p : TxPoint) (s : State) : Kept s (afterTx c t p s) := by
  cases p with
  | wake => exact enter_kept _ t s
  | send => exact enter_kept _ t s
  | watermark =>
    obtain h := enter_kept (.rx .watermarkAck) t { s with seq := .headerSent }
    exact ⟨h.1, h.2, h.3, h.4, h.5, h.6, h.7, h.8, h.9⟩
  | escape => exact attemptDone_kept c t .noResult s
  | headerAck =>
    obtain h := pageLoop_kept c 0 { t with offset := le16 t.rxbuf 2 }
      { s with seq := .headerReceived, pages := le16 t.rxbuf 0 }
    exact ⟨h.1, h.2, h.3, h.4, h.5, h.6, h.7, h.8, h.9⟩
  | pageAck =>
    obtain h := pageLoop_kept c (s.pidx.toNat + 1)
      { t with records := (walkPage c t.rxbuf s.pidx.toNat t.offset.toNat (s.rev, t.records)).2 }
      { s with rev := (walkPage c t.rxbuf s.pidx.toNat t.offset.toNat (s.rev, t.records)).1 }
    exact ⟨h.1, h.2, h.3, h.4, h.5, h.6, h.7, h.8, h.9⟩

theorem afterRx_kept (c : Config) (t : Task) (p : RxPoint) (a : RxAnswer) (s : State) : Kept s (afterRx c t p a s) := by
  cases p with
  | wake =>
    simp only [afterRx]
    split
    · exact wakeDone_kept c t _ s
    · split
      · exact enter_kept _ _ s
      · exact wakeDone_kept c t _ s
  | confirm =>
    cases a with
    | timeout => exact commandDone_kept c t .unreachable s
    | data bs =>
      simp only [afterRx]
      split
      · exact commandDone_kept c t _ s
      · split
        · exact enter_kept _ _ s
        · exact commandDone_kept c t _ s
  | watermarkAck =>
    cases a with
    | timeout => exact attemptDone_kept c t .unreachable s
    | data bs =>
      simp only [afterRx]
      split
      · exact enter_kept _ _ s
      · exact attemptDone_kept c t _ s
  | header =>
    cases a with
    | timeout => exact attemptDone_kept c t .unreachable s
    | data bs => simp only [afterRx]; split <;> exact enter_kept _ _ s
  | page =>
    cases a with
    | timeout => exact attemptDone_kept c t .unreachable s
    | data bs => simp only [afterRx]; split <;> exact enter_kept _ _ s
  | snapshot =>
    cases a with
    | timeout => exact finish_kept _ s
    | data bs =>
      simp only [afterRx]
      split
      · exact ⟨rfl, rfl, rfl, rfl, rfl, rfl, rfl, rfl, rfl⟩
      · split
        · exact startPause_kept _ _ s
        · exact finish_kept _ s

theorem afterPause_kept (t : Task) (p : PausePoint) (s : State) : Kept s (afterPause t p s) := by
  cases p with
  | attempt => exact startAttempt_kept _ s
  | snapshot => exact startSnapshotRead_kept _ s

/-- One atomic step of the sequencer keeps everything the host and the other families own. -/
theorem advance_kept (c : Config) (s : State) : Kept s (advance c s) := by
  unfold advance
  split
  · exact Kept.rfl' s
  · split
    · exact (transmit_kept _ s).then (afterTx_kept c _ _ _)
    · exact (receive_kept _ _ s).then (afterRx_kept c _ _ _ _)
    · exact afterPause_kept _ _ s

/-- A cancellation keeps the same, and transmits nothing (44_control.md R322). -/
theorem cancel_kept (c : Config) (s : State) : Kept s (cancel c s) := by
  unfold cancel
  split
  · exact Kept.rfl' s
  · split
    · exact Kept.rfl' s
    · exact ⟨rfl, rfl, rfl, rfl, rfl, rfl, rfl, rfl, rfl⟩
    · exact finish_kept _ s

theorem cancel_txLog (c : Config) (s : State) : (cancel c s).txLog = s.txLog := by
  unfold cancel
  split
  · rfl
  · split <;> rfl

/-! ## The answers of an Rx (20_memory.md R82) -/

/-- An answer is a timeout or exactly the bytes asked for. -/
theorem clampAnswer_cases (n : Nat) (a : RxAnswer) :
    clampAnswer n a = .timeout ∨ ∃ bs, clampAnswer n a = .data bs ∧ bs.length = n := by
  cases a with
  | timeout => exact .inl rfl
  | data bs =>
    by_cases h : bs.length < n
    · exact .inl (by simp [clampAnswer, h])
    · exact .inr ⟨bs.take n, by simp [clampAnswer, h], by simp; omega⟩

/-- An answer of the right length is taken as it is. -/
@[simp] theorem clampAnswer_exact (bs : List Byte) : clampAnswer bs.length (.data bs) = .data bs := by
  simp [clampAnswer]

@[simp] theorem clampAnswer_timeout (n : Nat) : clampAnswer n .timeout = .timeout := rfl

/-- Keeping an answer changes the receive buffer and the receive history, the latter at its end (10_state.md R45). -/
@[simp] theorem keepAnswer_rxbuf (n : Nat) (m : Millis) (a : RxAnswer) (t : Task) :
    (keepAnswer n m a t).rxbuf = answerBytes a := rfl
@[simp] theorem keepAnswer_received (n : Nat) (m : Millis) (a : RxAnswer) (t : Task) :
    (keepAnswer n m a t).received = t.received ++ [{ n := n, timeout := m, answer := some a }] := rfl
@[simp] theorem keepAnswer_op (n : Nat) (m : Millis) (a : RxAnswer) (t : Task) : (keepAnswer n m a t).op = t.op := rfl
@[simp] theorem keepAnswer_point (n : Nat) (m : Millis) (a : RxAnswer) (t : Task) : (keepAnswer n m a t).point = t.point := rfl
@[simp] theorem keepAnswer_kw (n : Nat) (m : Millis) (a : RxAnswer) (t : Task) : (keepAnswer n m a t).kw = t.kw := rfl
@[simp] theorem keepAnswer_ks (n : Nat) (m : Millis) (a : RxAnswer) (t : Task) : (keepAnswer n m a t).ks = t.ks := rfl
@[simp] theorem keepAnswer_kr (n : Nat) (m : Millis) (a : RxAnswer) (t : Task) : (keepAnswer n m a t).kr = t.kr := rfl
@[simp] theorem keepAnswer_kd (n : Nat) (m : Millis) (a : RxAnswer) (t : Task) : (keepAnswer n m a t).kd = t.kd := rfl
@[simp] theorem keepAnswer_offset (n : Nat) (m : Millis) (a : RxAnswer) (t : Task) :
    (keepAnswer n m a t).offset = t.offset := rfl
@[simp] theorem keepAnswer_records (n : Nat) (m : Millis) (a : RxAnswer) (t : Task) :
    (keepAnswer n m a t).records = t.records := rfl
@[simp] theorem keepAnswer_pcrc (n : Nat) (m : Millis) (a : RxAnswer) (t : Task) : (keepAnswer n m a t).pcrc = t.pcrc := rfl

/-- The channel sees the same request and answer that the operation keeps (20_memory.md R84). -/
theorem receive_rxLog (n : Nat) (m : Millis) (s : State) :
    (receive n m s).2.rxLog = s.rxLog ++ [{ n := n, timeout := m, answer := some (receive n m s).1 }] := rfl

/-- What an Rx that ends does: the operation goes on with its clamped answer, kept and seen on the channel. -/
theorem advance_of_rx {c : Config} {s : State} {t : Task} {p : RxPoint} (h : s.task = some t) (hp : t.point = .rx p) :
    advance c s =
      afterRx c (keepAnswer (rxRequest c t p).1 (rxRequest c t p).2 (receive (rxRequest c t p).1 (rxRequest c t p).2 s).1 t) p
        (receive (rxRequest c t p).1 (rxRequest c t p).2 s).1 (receive (rxRequest c t p).1 (rxRequest c t p).2 s).2 := by
  simp [advance, h, hp]

theorem receive_cons {n : Nat} {m : Millis} {s : State} {a : RxAnswer} {rest : List RxAnswer} (h : s.answers = a :: rest) :
    receive n m s = (clampAnswer n a,
      { s with answers := rest, rxLog := s.rxLog ++ [{ n := n, timeout := m, answer := some (clampAnswer n a) }] }) := by
  simp [receive, nextAnswer, h]

/-! ## The revision probe (41_record_codec.md R176) -/

theorem probe_ne_unknown (rev : Rev) (d : Byte) : probe rev d ≠ .unknown := by
  cases rev <;> simp [probe]
  split <;> simp

theorem probe_of_known {rev : Rev} (d : Byte) (h : rev ≠ .unknown) : probe rev d = rev := by
  cases rev <;> simp_all [probe]

/-! ## Pages (43_download.md R276) -/

theorem walkSlots_zero (c : Config) (f : List Byte) (s : Nat) (x : Rev × List ArcEntry) : walkSlots c f s 0 x = x := rfl

theorem walkSlots_succ (c : Config) (f : List Byte) (s n : Nat) (x : Rev × List ArcEntry) :
    walkSlots c f s (n + 1) x = walkSlots c f (s + 1) n (slotRecord c f (1 + c.arcSize * s) x) := rfl

/-- The flag after a slot is what the probe gives. -/
@[simp] theorem slotRecord_rev (c : Config) (f : List Byte) (q : Nat) (x : Rev × List ArcEntry) :
    (slotRecord c f q x).1 = probe x.1 (u8 f (q + c.discOffset)) := rfl

/-- A slot adds at most one record, at the end. -/
theorem slotRecord_records (c : Config) (f : List Byte) (q : Nat) (x : Rev × List ArcEntry) :
    (slotRecord c f q x).2 = x.2 ∨
    (slotRecord c f q x).2 = x.2 ++ [decodeArc c (probe x.1 (u8 f (q + c.discOffset))).layout f q] := by
  unfold slotRecord
  dsimp only
  split
  · exact .inl rfl
  · exact .inr rfl

end Sys2Proof.Laws
end

