-- ==== Sys2Proof/Laws/Step.lean ====
section
/-! SUPPORT. Who moves in a step, one lemma per case, and how runs compose. -/

namespace Sys2Proof.Laws

open Sys2Proof.Machine

theorem step_of_cancelDue {s : State} (h : cancelDue s = true) : step s = .next (cancel cfg s) := by
  simp [step, h]

theorem step_of_nil {s : State} (h : cancelDue s = false) (hi : s.inputs = []) : step s = .next (advance cfg s) := by
  simp [step, h, hi]

theorem step_of_host {s : State} {a : Access} {rest : List Input} (h : cancelDue s = false)
    (hi : s.inputs = .host a :: rest) : step s = hostAccess a { s with inputs := rest } := by
  simp [step, h, hi]

theorem step_of_proceed {s : State} {rest : List Input} (h : cancelDue s = false) (hi : s.inputs = .proceed :: rest) :
    step s = .next (advance cfg { s with inputs := rest }) := by
  simp [step, h, hi]

theorem step_of_waitDone {s : State} {rest : List Input} (h : cancelDue s = false) (hi : s.inputs = .waitDone :: rest) :
    step s = .next (waitDone rest s) := by
  simp [step, h, hi]

theorem step_of_reset {s : State} {rest : List Input} (h : cancelDue s = false) (hi : s.inputs = .reset :: rest) :
    step s = .next (resetBlock { s with inputs := rest }) := by
  simp [step, h, hi]

theorem cancelDue_of_idle {s : State} (h : s.task = none) : cancelDue s = false := by simp [cancelDue, h]

theorem cancelDue_of_no_abort {s : State} (h : s.abortReq = false) : cancelDue s = false := by
  unfold cancelDue
  split
  · rfl
  · split <;> first | rfl | exact h

theorem runSteps_zero (s : State) : runSteps 0 s = .next s := rfl

theorem runSteps_succ {n : Nat} {s u : State} (h : step s = .next u) : runSteps (n + 1) s = runSteps n u := by
  have hc : Sys2Proof.core.step s = .next u := h
  simp only [runSteps, Host.Core.run, hc]
  rfl

theorem runSteps_fault {n : Nat} {s : State} {r : Fault} (h : step s = .fault r) : runSteps (n + 1) s = .fault r := by
  have hc : Sys2Proof.core.step s = .fault r := h
  simp only [runSteps, Host.Core.run, hc]
  rfl

theorem runSteps_refused {n : Nat} {s : State} {r : Refusal} (h : step s = .refused r) :
    runSteps (n + 1) s = .refused r := by
  have hc : Sys2Proof.core.step s = .refused r := h
  simp only [runSteps, Host.Core.run, hc]
  rfl

/-- A run of `m + n` steps is a run of `n` steps from where `m` steps lead. -/
theorem runSteps_add {m n : Nat} {s u : State} (h : runSteps m s = .next u) : runSteps (m + n) s = runSteps n u := by
  induction m generalizing s with
  | zero => rw [Nat.zero_add]; cases h; rfl
  | succ m ih =>
    rw [show m + 1 + n = (m + n) + 1 by omega]
    cases hs : step s with
    | next t => rw [runSteps_succ hs] at h ⊢; exact ih h
    | fault r => rw [runSteps_fault hs] at h; cases h
    | refused r => rw [runSteps_refused hs] at h; cases h

end Sys2Proof.Laws
end

