-- ==== Sys2Proof/Tests/Slice0.lean ====
section
/-! SUPPORT. Tests: ill-formed terms, decoding, the spec's tables and vectors, one step of each operation; then, for every
obligation with hypotheses, a witness that meets them. Expected values are the spec's (95_test_vectors.md, and the examples of
the rules named). -/

namespace Sys2Proof.Tests

open Sys2Proof.Machine Sys2Proof.Laws

set_option Elab.async false

/-! ## Data of 95_test_vectors.md -/

/-- V-REC-1. -/
def rec1 : List Byte :=
  [0xCF, 0x2E, 0x96, 0x05, 0xD5, 0x02, 0xEE, 0x02, 0xBC, 0x02, 0x00, 0x00, 0x00, 0x00, 0x30, 0x75, 0x00, 0x00, 0x64, 0x00, 0xBC, 0x02, 0x28, 0x37, 0x05, 0x0C] ++
  [0x08, 0x07, 0x00, 0x00, 0x00, 0x00, 0x00, 0x00, 0xFF, 0xFF, 0xFF, 0xFF, 0xFF, 0xFF, 0xFF, 0xFF, 0x00, 0xFF, 0xFF, 0xFF, 0xFF, 0xFF, 0xFF, 0xFF, 0xFF, 0xFF]

/-- SENT, a sentinel slot. -/
def sent : List Byte := List.replicate 52 0xFF

/-- The index byte and the first slot of V-PAGE-1. -/
def page1Head : List Byte := [0x00] ++ rec1

/-- V-PAGE-1. -/
def page1 : List Byte := page1Head ++ sent ++ sent ++ sent ++ sent ++ [0x00, 0x00, 0x00, 0x00, 0x5E, 0x70]

/-- V-PAGE-1x: bit 0x80 of byte 10 flipped. -/
def page1x : List Byte := page1Head.set 10 0x82 ++ sent ++ sent ++ sent ++ sent ++ [0x00, 0x00, 0x00, 0x00, 0x5E, 0x70]

/-- V-SNAP-1, its first 52 bytes and the rest. -/
def snap1Head : List Byte :=
  [0x4C, 0x4F, 0x4F, 0x00, 0x00, 0x00, 0x00, 0x30, 0x75, 0xBC, 0x02, 0x28, 0xD5, 0x02, 0x05, 0x04, 0x0E, 0x01, 0x5A, 0xFF, 0xFF, 0xFF, 0xFF, 0xFF, 0xFF, 0x00] ++
  [0xFF, 0xFF, 0xFF, 0xFF, 0xFF, 0xFF, 0xFF, 0x37, 0xFF, 0xFF, 0xFF, 0xFF, 0xFF, 0xFF, 0xFF, 0x96, 0x00, 0x03, 0xC2, 0x01, 0x19, 0x00, 0x97, 0x67, 0x19, 0x00]

def snap1Tail : List Byte :=
  [0x36, 0x01, 0xE2, 0x04, 0x78, 0x00, 0x59, 0x01, 0x72, 0x10, 0xFF, 0xFF, 0xFF, 0xFF, 0xFF, 0xFF, 0xFF, 0xFF, 0x00, 0x00, 0x00, 0x00, 0x00, 0x00, 0x00, 0x00] ++
  [0x00, 0x00, 0x00, 0x00, 0x00, 0x00, 0x00, 0x00, 0x00, 0xBC, 0x02, 0x06, 0x2C, 0x59, 0x02, 0x07, 0x08, 0x0A, 0x0D, 0x20, 0xDB]

def snap1 : List Byte := snap1Head ++ snap1Tail

/-- V-SNAP-1x. -/
def snap1x : List Byte := snap1Head.set 9 0xBD ++ snap1Tail

/-- Header (1, 0). -/
def header1 : List Byte := [0x01, 0x00, 0x00, 0x00, 0x76, 0xB4]

/-- Header (2, 0). -/
def header2 : List Byte := [0x02, 0x00, 0x00, 0x00, 0xED, 0x68]

/-- The corrupted header of S2. -/
def headerBad : List Byte := [0x00, 0x00, 0x00, 0x00, 0x76, 0xB4]

/-- "123456789". -/
def digits9 : List Byte := [0x31, 0x32, 0x33, 0x34, 0x35, 0x36, 0x37, 0x38, 0x39]

/-! ## Helpers -/

/-- The cells of `bs` from index `a` on. -/
def cells : Nat → List Byte → Memory
  | _, [] => []
  | a, b :: bs => (a, b) :: cells (a + 1) bs

/-- Reset with `bs` in FB from index 0 and LEN their number. -/
def loaded (bs : List Byte) : State :=
  { State.reset with fb := cells 0 bs, len := BitVec.ofNat 10 bs.length }

/-- The next state of an answer, reset where it stops. -/
def nextOf : Answer → State
  | .next s => s
  | .fault _ => .reset
  | .refused _ => .reset

/-- Does an answer give a next state? -/
def goesOn : Answer → Bool
  | .next _ => true
  | .fault _ => false
  | .refused _ => false

theorem eq_next_of_goesOn {a : Answer} (h : goesOn a = true) : a = .next (nextOf a) := by
  cases a with
  | next s => rfl
  | fault r => cases h
  | refused r => cases h

/-- The record of a result. -/
def recordOf : Result → Record
  | .none => []
  | .snap r => r
  | .arc e => e.record
  | .hdr _ _ _ => []
  | .page _ _ _ _ => []

/-- The revision of a result. -/
def revOf : Result → Option ArcRev
  | .none => none
  | .snap _ => none
  | .arc e => some e.rev
  | .hdr _ _ _ => none
  | .page _ _ _ _ => none

/-- A host write of a word to CMD. -/
def cmdInput (w : Word) : Input := .host (.write .word 0x000 w)

/-- A block running `op` at `p` under `seq`. -/
def running (op : SerialOp) (p : Point) (seq : Phase) : State :=
  { State.reset with seq := seq, lastop := op.opcode, task := some { newTask cfg op with point := p } }

/-- POLL_ARC at the acknowledgement of the only page of a download, V-PAGE-1. -/
def lastPage : State :=
  { State.reset with
    seq := .pageLoop, lastop := 0x25, pages := 1,
    task := some { newTask cfg .pollArc with point := .tx .pageAck, rxbuf := page1 } }

/-! ## Ill-formed terms are refused (30_encoding.md R100) -/

theorem test_wf_byte : (Instr.crcByte 256).wf = false ∧ (Instr.crcByte 255).wf = true := by decide
theorem test_wf_decSnap : (Instr.decSnap 65536).wf = false ∧ (Instr.decSnap 65535).wf = true := by decide
theorem test_wf_decArca : (Instr.decArca 65536).wf = false ∧ (Instr.decArca 65535).wf = true := by decide
theorem test_wf_decArcb : (Instr.decArcb 65536).wf = false ∧ (Instr.decArcb 65535).wf = true := by decide
theorem test_wf_decArc : (Instr.decArc 65536).wf = false ∧ (Instr.decArc 65535).wf = true := by decide
theorem test_wf_decHdr : (Instr.decHdr 65536).wf = false ∧ (Instr.decHdr 65535).wf = true := by decide
theorem test_wf_decPage : (Instr.decPage 65536).wf = false ∧ (Instr.decPage 65535).wf = true := by decide
theorem test_wf_setper : (Instr.setper 65536).wf = false ∧ (Instr.setper 65535).wf = true := by decide

/-! ## Words written out from the opcode map and the formats (30_encoding.md R100, R102; 95_test_vectors.md) -/

theorem test_decode_nop : decodeTableWord 32 0x00000000 = some .nop := by decide
theorem test_decode_nop_unused_bits : decodeTableWord 32 0xFFFFFF00 = some .nop := by decide
theorem test_decode_crcClr : decodeTableWord 32 0x00000001 = some .crcClr := by decide
theorem test_decode_crcByte : decodeTableWord 32 0x00004102 = some (.crcByte 0x41) := by decide
theorem test_decode_crcBuf : decodeTableWord 32 0x00000003 = some .crcBuf := by decide
theorem test_decode_verify : decodeTableWord 32 0x00000004 = some .verify := by decide
theorem test_decode_crcAppend : decodeTableWord 32 0x00000005 = some .crcAppend := by decide
theorem test_decode_decSnap : decodeTableWord 32 0x00100010 = some (.decSnap 16) := by decide
theorem test_decode_decArca : decodeTableWord 32 0x00010011 = some (.decArca 1) := by decide
theorem test_decode_decArcb : decodeTableWord 32 0x01000012 = some (.decArcb 256) := by decide
theorem test_decode_decArc : decodeTableWord 32 0x00010013 = some (.decArc 1) := by decide
theorem test_decode_decHdr : decodeTableWord 32 0x00010014 = some (.decHdr 1) := by decide
theorem test_decode_decPage : decodeTableWord 32 0x00F50015 = some (.decPage 245) := by decide
theorem test_decode_wake : decodeTableWord 32 0x00000020 = some .wake := by decide
theorem test_decode_setper : decodeTableWord 32 0xFFFF0021 = some (.setper 65535) := by decide
theorem test_decode_clrlog : decodeTableWord 32 0x00000022 = some .clrlog := by decide
theorem test_decode_pollRt : decodeTableWord 32 0x12340023 = some .pollRt := by decide
theorem test_decode_download : decodeTableWord 32 0x00000024 = some .download := by decide
theorem test_decode_pollArc : decodeTableWord 32 0x00000025 = some .pollArc := by decide
theorem test_decode_abort : decodeTableWord 32 0x0000003F = some .abort := by decide
theorem test_decode_reserved :
    [0x06, 0x16, 0x26, 0x3E, 0x40, 0xFF].map (decodeTableWord 32) = [none, none, none, none, none, none] := by decide
theorem test_encode_setper : encode (.setper 5) = 0x00050021 := by decide

/-! ## The layouts: sizes, and the first column of the spec's tables (41_record_codec.md R163, R164, R166, R167) -/

theorem test_layouts_ok : LayoutsOk cfg := by constructor <;> decide

theorem test_snap_offsets : layoutSnapTable.offsets 0 =
    [0, 3, 4, 5, 7, 9, 11, 12, 14, 15, 16, 18, 25, 29, 33, 34, 41, 43, 44, 46, 48, 50] ++
    [52, 54, 56, 58, 60, 62, 66, 70, 71, 72, 74, 82, 86, 87, 89, 90, 91, 93, 95, 97] := by decide

theorem test_prefix_offsets : layoutPrefixTable.offsets 0 =
    [0, 2, 4, 6, 8, 10, 12, 14, 16, 18, 20, 22, 23, 24, 25, 26, 27, 28, 29] := by decide

theorem test_tailA_offsets : layoutTailATable.offsets 30 = [30, 31, 35, 39, 43, 45, 47, 49, 51] := by decide

theorem test_tailB_offsets : layoutTailBTable.offsets 30 = [30, 32, 33, 34, 36, 38, 42, 43, 45, 48] := by decide

theorem test_entries_ok :
    (layoutSnapTable ++ layoutPrefixTable ++ layoutTailATable ++ layoutTailBTable).all entryOk = true := by decide

/-! ## CRC (40_crc.md R130; 95_test_vectors.md L2) -/

/-- The table of R130. -/
def crcTableR130 : List Half :=
  [0x0000, 0x1021, 0x2042, 0x3063, 0x4084, 0x50A5, 0x60C6, 0x70E7] ++
  [0x8108, 0x9129, 0xA14A, 0xB16B, 0xC18C, 0xD1AD, 0xE1CE, 0xF1EF] ++
  [0x1231, 0x0210, 0x3273, 0x2252, 0x52B5, 0x4294, 0x72F7, 0x62D6] ++
  [0x9339, 0x8318, 0xB37B, 0xA35A, 0xD3BD, 0xC39C, 0xF3FF, 0xE3DE] ++
  [0x2462, 0x3443, 0x0420, 0x1401, 0x64E6, 0x74C7, 0x44A4, 0x5485] ++
  [0xA56A, 0xB54B, 0x8528, 0x9509, 0xE5EE, 0xF5CF, 0xC5AC, 0xD58D] ++
  [0x3653, 0x2672, 0x1611, 0x0630, 0x76D7, 0x66F6, 0x5695, 0x46B4] ++
  [0xB75B, 0xA77A, 0x9719, 0x8738, 0xF7DF, 0xE7FE, 0xD79D, 0xC7BC] ++
  [0x48C4, 0x58E5, 0x6886, 0x78A7, 0x0840, 0x1861, 0x2802, 0x3823] ++
  [0xC9CC, 0xD9ED, 0xE98E, 0xF9AF, 0x8948, 0x9969, 0xA90A, 0xB92B] ++
  [0x5AF5, 0x4AD4, 0x7AB7, 0x6A96, 0x1A71, 0x0A50, 0x3A33, 0x2A12] ++
  [0xDBFD, 0xCBDC, 0xFBBF, 0xEB9E, 0x9B79, 0x8B58, 0xBB3B, 0xAB1A] ++
  [0x6CA6, 0x7C87, 0x4CE4, 0x5CC5, 0x2C22, 0x3C03, 0x0C60, 0x1C41] ++
  [0xEDAE, 0xFD8F, 0xCDEC, 0xDDCD, 0xAD2A, 0xBD0B, 0x8D68, 0x9D49] ++
  [0x7E97, 0x6EB6, 0x5ED5, 0x4EF4, 0x3E13, 0x2E32, 0x1E51, 0x0E70] ++
  [0xFF9F, 0xEFBE, 0xDFDD, 0xCFFC, 0xBF1B, 0xAF3A, 0x9F59, 0x8F78] ++
  [0x9188, 0x81A9, 0xB1CA, 0xA1EB, 0xD10C, 0xC12D, 0xF14E, 0xE16F] ++
  [0x1080, 0x00A1, 0x30C2, 0x20E3, 0x5004, 0x4025, 0x7046, 0x6067] ++
  [0x83B9, 0x9398, 0xA3FB, 0xB3DA, 0xC33D, 0xD31C, 0xE37F, 0xF35E] ++
  [0x02B1, 0x1290, 0x22F3, 0x32D2, 0x4235, 0x5214, 0x6277, 0x7256] ++
  [0xB5EA, 0xA5CB, 0x95A8, 0x8589, 0xF56E, 0xE54F, 0xD52C, 0xC50D] ++
  [0x34E2, 0x24C3, 0x14A0, 0x0481, 0x7466, 0x6447, 0x5424, 0x4405] ++
  [0xA7DB, 0xB7FA, 0x8799, 0x97B8, 0xE75F, 0xF77E, 0xC71D, 0xD73C] ++
  [0x26D3, 0x36F2, 0x0691, 0x16B0, 0x6657, 0x7676, 0x4615, 0x5634] ++
  [0xD94C, 0xC96D, 0xF90E, 0xE92F, 0x99C8, 0x89E9, 0xB98A, 0xA9AB] ++
  [0x5844, 0x4865, 0x7806, 0x6827, 0x18C0, 0x08E1, 0x3882, 0x28A3] ++
  [0xCB7D, 0xDB5C, 0xEB3F, 0xFB1E, 0x8BF9, 0x9BD8, 0xABBB, 0xBB9A] ++
  [0x4A75, 0x5A54, 0x6A37, 0x7A16, 0x0AF1, 0x1AD0, 0x2AB3, 0x3A92] ++
  [0xFD2E, 0xED0F, 0xDD6C, 0xCD4D, 0xBDAA, 0xAD8B, 0x9DE8, 0x8DC9] ++
  [0x7C26, 0x6C07, 0x5C64, 0x4C45, 0x3CA2, 0x2C83, 0x1CE0, 0x0CC1] ++
  [0xEF1F, 0xFF3E, 0xCF5D, 0xDF7C, 0xAF9B, 0xBFBA, 0x8FD9, 0x9FF8] ++
  [0x6E17, 0x7E36, 0x4E55, 0x5E74, 0x2E93, 0x3EB2, 0x0ED1, 0x1EF0]

theorem test_crc_table : (List.range 256).map (fun i => crcTable 0x1021 (BitVec.ofNat 8 i)) = crcTableR130 := by
  decide +kernel

theorem test_crc_check_value : crc cfg digits9 = 0x31C3 := by decide +kernel
theorem test_crc_ones : crc cfg sent = 0x8554 := by decide +kernel
theorem test_crc_rec1 : crc cfg rec1 = 0x4945 := by decide +kernel

/-- The accumulator behind each part of V-PAGE-1 and V-PAGE-1x (steps of the two tests below). -/
theorem crc_page1_parts :
    crcFrom cfg.poly cfg.crcInit page1Head = 18757 ∧ crcFrom cfg.poly 18757 sent = 27846 ∧
    crcFrom cfg.poly 27846 sent = 33405 ∧ crcFrom cfg.poly 33405 sent = 25698 ∧ crcFrom cfg.poly 25698 sent = 23355 ∧
    crcFrom cfg.poly 23355 [0x00, 0x00, 0x00, 0x00, 0x5E, 0x70] = 0x0000 := by decide +kernel

theorem crc_page1x_parts :
    crcFrom cfg.poly cfg.crcInit (page1Head.set 10 0x82) = 27315 ∧ crcFrom cfg.poly 27315 sent = 55886 ∧
    crcFrom cfg.poly 55886 sent = 44368 ∧ crcFrom cfg.poly 44368 sent = 11811 ∧ crcFrom cfg.poly 11811 sent = 16004 ∧
    crcFrom cfg.poly 16004 [0x00, 0x00, 0x00, 0x00, 0x5E, 0x70] = 0x57DE := by decide +kernel

theorem test_crc_page1 : crc cfg page1 = 0x0000 := by
  obtain ⟨h1, h2, h3, h4, h5, h6⟩ := crc_page1_parts
  unfold crc page1
  rw [crcFrom_append, crcFrom_append, crcFrom_append, crcFrom_append, crcFrom_append, h1, h2, h3, h4, h5, h6]

theorem test_crc_page1x : crc cfg page1x = 0x57DE := by
  obtain ⟨h1, h2, h3, h4, h5, h6⟩ := crc_page1x_parts
  unfold crc page1x
  rw [crcFrom_append, crcFrom_append, crcFrom_append, crcFrom_append, crcFrom_append, h1, h2, h3, h4, h5, h6]

theorem crc_snap1_parts :
    crcFrom cfg.poly cfg.crcInit snap1Head = 61733 ∧ crcFrom cfg.poly 61733 snap1Tail = 0x0000 ∧
    crcFrom cfg.poly cfg.crcInit (snap1Head.set 9 0xBD) = 39855 ∧ crcFrom cfg.poly 39855 snap1Tail = 0xF594 := by
  decide +kernel

theorem test_crc_snap1 : crc cfg snap1 = 0x0000 ∧ crc cfg snap1x = 0xF594 := by
  obtain ⟨h1, h2, h3, h4⟩ := crc_snap1_parts
  unfold crc snap1 snap1x
  rw [crcFrom_append, crcFrom_append, h1, h2, h3, h4]
  exact ⟨rfl, rfl⟩
theorem test_watermark_frame : watermarkFrame cfg 0x2ECF 1500 = [0xCF, 0x2E, 0xDC, 0x05, 0xFA, 0x62] := by decide +kernel

/-! ## Frames (30_encoding.md R107) -/

theorem test_frame_setper : frameOf (.setper 65535) =
    [0x53, 0x45, 0x54, 0x50, 0x45, 0x52, 0x20, 0x36, 0x35, 0x35, 0x33, 0x35, 0x20, 0x0A] := by decide +kernel
theorem test_frame_setper0 : frameOf (.setper 0) =
    [0x53, 0x45, 0x54, 0x50, 0x45, 0x52, 0x20, 0x30, 0x20, 0x0A] := by decide +kernel
theorem test_frame_clrlog : frameOf .clrlog = [0x43, 0x4C, 0x52, 0x4C, 0x4F, 0x47, 0x20, 0x0A] := by decide +kernel
theorem test_frame_loop : frameOf .pollRt = [0x4C, 0x4F, 0x4F, 0x50, 0x20, 0x31, 0x20, 0x0A] := by decide +kernel
theorem test_frame_dmpaft : frameOf .pollArc = [0x44, 0x4D, 0x50, 0x41, 0x46, 0x54, 0x20, 0x0A] := by decide +kernel

/-! ## Transforms (95_test_vectors.md L2) -/

theorem test_adate : expandDate 0x2ECF = .adate 0x2ECF 2023 6 15 ∧ expandDate 0xFFFF = .adate 0xFFFF 2127 15 31 := by decide
theorem test_atime : expandTime 1430 = .atime 1430 14 30 ∧ expandTime 0xFFFF = .atime 0xFFFF 655 35 := by decide
theorem test_sdate : expandStormDate 0x6797 =
    .sdate 2023 6 15 [0x32, 0x30, 0x32, 0x33, 0x2D, 0x30, 0x36, 0x2D, 0x31, 0x35] := by decide +kernel
theorem test_hhmm : expandClock 601 = .hhmm 6 1 [0x30, 0x36, 0x3A, 0x30, 0x31] ∧
    expandClock 65535 = .hhmm 655 35 [0x36, 0x35, 0x35, 0x3A, 0x33, 0x35] := by decide +kernel
theorem test_off90 : off90 [0x00, 0x5A, 0xFF] = [-90, 0, 165] := by decide
theorem test_t16_signed : decodeEntry true ⟨.tempIn, .t16, .div 10⟩ [0xF6, 0xFF] 0 = .ratio (-1) ∧
    decodeEntry false ⟨.tempIn, .t16, .div 10⟩ [0xF6, 0xFF] 0 = .ratio (65526 / 10) := by decide +kernel
theorem test_batt : applyNum .batt 512 = .ratio 3 ∧ applyNum .batt 65535 = .ratio (196605 / 512) := by decide +kernel

/-! ## One step of each operation -/

/-- NOP clears OVR (44_control.md R320). -/
theorem test_nop : let s := nextOf (step ({ State.reset with ovr := true }.withFetchWord 32 0x00000000))
    s.ovr = false ∧ s.done = true ∧ s.code = .ok := by decide +kernel

/-- ABORT while idle: LASTOP = 0x3F (95_test_vectors.md, control). -/
theorem test_abort_idle : let s := nextOf (step (State.reset.withFetchWord 32 0x0000003F))
    s.lastop = 0x3F ∧ s.code = .ok ∧ s.done = true := by decide +kernel

/-- ABORT while POLL_ARC runs: LASTOP stays 0x25, then CANCELLED (95_test_vectors.md, control and P9). -/
theorem test_abort_busy :
    let s := nextOf (runSteps 2 ((running .pollArc (.rx .page) .pageLoop).withFetchWord 32 0x0000003F))
    s.lastop = 0x25 ∧ s.code = .cancelled ∧ s.seq = .aborted ∧ s.txLog = [] := by decide +kernel

/-- A command while POLL_RT runs is lost (95_test_vectors.md, control). -/
theorem test_lost_command :
    let s := nextOf (step ((running .pollRt (.rx .snapshot) .dataRead).withFetchWord 32 0x00000001))
    s.ovr = true ∧ s.lastop = 0x23 ∧ s.busy = true := by decide +kernel

/-- A write to a read-only register and one to a reserved address while POLL_RT runs (44_control.md R321). -/
theorem test_lost_ignored_write :
    let s := running .pollRt (.rx .snapshot) .dataRead
    nextOf (hostAccess (.write .word 0x004 0xFFFFFFFF) s) = { s with ovr := true } ∧
      nextOf (hostAccess (.write .byte 0x300 0x00000001) s) = { s with ovr := true } := by decide +kernel

/-- The receive history grows with each Rx and is gone after finish (10_state.md R45). -/
theorem test_receive_history :
    let s := nextOf (step { running .wake (.rx .wake) .wake with answers := [.timeout] })
    let u := nextOf (runSteps 2 { s with answers := [.data [0x0A, 0x0D]] })
    s.task.map (·.received) = some [{ n := 2, timeout := 1200, answer := some .timeout }] ∧ u.task = none ∧
      u.code = .ok := by decide +kernel

/-- A reserved OP (95_test_vectors.md, control). -/
theorem test_illegal_op : let s := nextOf (step (State.reset.withFetchWord 32 0x00000007))
    s.code = .illegalOp ∧ s.busy = false ∧ s.lastop = 0x07 := by decide +kernel

theorem test_crcClr : (nextOf (exec .crcClr { State.reset with acc := 0x31C3 })).acc = 0x0000 := by decide +kernel
theorem test_crcByte : (nextOf (exec (.crcByte 0x42) { State.reset with acc := 0x58E5 })).acc = 0x567B := by decide +kernel
theorem test_crcByte_first : (nextOf (exec (.crcByte 0x41) State.reset)).acc = 0x58E5 := by decide +kernel
theorem test_crcBuf : (nextOf (exec .crcBuf (loaded digits9))).acc = 0x31C3 := by decide +kernel
theorem test_verify_good : (nextOf (exec .verify (loaded header1))).valid = true := by decide +kernel
theorem test_verify_bad : let s := nextOf (exec .verify { loaded headerBad with valid := true })
    s.valid = false ∧ s.acc = 0x45A0 ∧ s.code = .ok := by decide +kernel
theorem test_crcAppend : let s := nextOf (exec .crcAppend (loaded [0xCF, 0x2E, 0x96, 0x05]))
    memRead s.fb 0 6 = some [0xCF, 0x2E, 0x96, 0x05, 0x18, 0x65] ∧ s.len = 6 ∧ s.acc = 0x1865 := by decide +kernel
theorem test_crcAppend_overflow : let s := nextOf (exec .crcAppend { State.reset with len := 511, acc := 7 })
    s.code = .bufOverflow ∧ s.len = 511 ∧ s.acc = 7 := by decide +kernel

/-- V-SNAP-1 (41_record_codec.md R187). -/
theorem test_decSnap : let r := recordOf (nextOf (exec (.decSnap 0) (loaded snap1))).result
    getField r .pressure = some (.ratio 30) ∧ getField r .tempOut = some (.ratio (725 / 10)) ∧
    getField r .rainRate = some (.ratio (3 / 2)) ∧
    getField r .sunRise = some (.hhmm 6 1 [0x30, 0x36, 0x3A, 0x30, 0x31]) := by decide +kernel
theorem test_decSnap_short : let s := nextOf (exec (.decSnap 0) { State.reset with len := 98, result := .hdr 1 2 3 })
    s.code = .decodeFail ∧ s.result = .none := by decide +kernel

/-- V-REC-1 decoded under A (95_test_vectors.md L2). -/
theorem test_decArca : let x := (nextOf (exec (.decArca 0) (loaded rec1))).result
    revOf x = some .a ∧ getField (recordOf x) .soilMoist = some (.ints [0, 0, 0, 255]) ∧
    getField (recordOf x) .reedClosed = some (.num 0xFFFF) ∧ stampOf (recordOf x) = (0x2ECF, 1430) := by decide +kernel

/-- V-REC-1 decoded under B (41_record_codec.md R189). -/
theorem test_decArcb : let x := (nextOf (exec (.decArcb 0) (loaded rec1))).result
    revOf x = some .b ∧ getField (recordOf x) .barometer = some (.ratio 30) ∧
    getField (recordOf x) .recType = some (.num 0) ∧
    getField (recordOf x) .soilTemps = some (.ints [165, 165, 165, 165]) := by decide +kernel

/-- The probe, and that it is sticky (41_record_codec.md R190). -/
theorem test_decArc_probe : (nextOf (exec (.decArc 0) (loaded rec1))).rev = .b ∧
    (nextOf (exec (.decArc 0) (loaded sent))).rev = .a := by decide +kernel
theorem test_decArc_sticky : let s := nextOf (exec (.decArc 0) { loaded sent with rev := .b })
    s.rev = .b ∧ revOf s.result = some .b := by decide +kernel

theorem test_decHdr : (nextOf (exec (.decHdr 0) (loaded [0x01, 0x02, 0x00, 0x00, 0x18, 0xD4]))).result =
    .hdr 513 0 0x18D4 := by decide +kernel
theorem test_decPage : decodePage cfg page1 0 =
    .page 0x00 (rec1 ++ sent ++ sent ++ sent ++ sent) [0x00, 0x00, 0x00, 0x00] 0x5E70 := by decide +kernel
theorem test_decPage_short : (nextOf (exec (.decPage 246) { State.reset with len := 512 })).code = .decodeFail := by
  decide +kernel

/-- The acceptance of a serial operation (10_state.md R32, R33, R41). -/
theorem test_wake : let s := nextOf (step (State.reset.withFetchWord 32 0x00000020))
    s.busy = true ∧ s.done = false ∧ s.seq = .wake ∧ s.lastop = 0x20 ∧ statusWord s = 0x01200001 := by decide +kernel
theorem test_setper : (nextOf (exec (.setper 5) State.reset)).task = some (newTask cfg (.setper 5)) := by decide +kernel
theorem test_clrlog : (nextOf (exec .clrlog State.reset)).task = some (newTask cfg .clrlog) := by decide +kernel
theorem test_pollRt : (nextOf (exec .pollRt { State.reset with result := .hdr 1 2 3 })).result = .none := by decide +kernel
theorem test_download : let s := nextOf (exec .download { State.reset with selValid := true, selIndex := 4, pages := 2 })
    s.selValid = false ∧ s.selIndex = 0 ∧ s.pages = 0 ∧ s.seq = .wake := by decide +kernel

/-- The last step of program P3: the record is selected and the watermark moves to it. -/
theorem test_pollArc_end : let s := nextOf (step lastPage)
    s.code = .ok ∧ s.seq = .done ∧ s.rev = .b ∧ s.count = 1 ∧ selWord s = 0x80000000 ∧ wmWord s = 0x2ECF0596 ∧
      progWord s = 0x00000001 := by decide +kernel

/-- A pseudo-instruction's expansion (30_encoding.md R105). -/
theorem test_setwm : assemble [.setwm 0x2ECF 1430] = [.host (.write .word 0x010 0x2ECF0596)] := by decide +kernel

/-! ## Witnesses: for every obligation with hypotheses, values that meet them -/

theorem read_cells (a i : Nat) (bs : List Byte) : Memory.read (cells a bs) (a + i) = bs[i]? := by
  induction bs generalizing a i with
  | nil => rfl
  | cons b bs ih =>
    cases i with
    | zero => simp [cells, read_cons]
    | succ i =>
      rw [cells, read_cons, if_neg (by omega), show a + (i + 1) = a + 1 + i by omega, ih]
      simp

theorem holds_loaded (bs : List Byte) : FbHolds (loaded bs) 0 bs := fun i _ => read_cells 0 i bs

theorem len_loaded (bs : List Byte) : (loaded bs).len.toNat = bs.length % 1024 := by simp [loaded]

/-- The invariant of a state that has just been reset, or holds the leftovers of host-only commands. -/
theorem inv_idle {s : State} (hf : FbInv s) (hr : s.rlist = []) (hv : s.selValid = false) (hi : s.selIndex = 0)
    (ht : s.task = none) (ha : s.abortReq = false) (hq : s.seq = .idle) : Inv s where
  fb := hf
  results := by simp [ResultInv, hr, hv, hi]
  idle := fun _ => ⟨ha, .inl hq⟩
  task := by simp [ht]

/-- The invariant of a state in which an operation runs that has collected nothing yet. -/
theorem inv_running {s : State} {t : Task} (ht : s.task = some t) (hf : FbInv s) (hr : s.rlist = [])
    (hv : s.selValid = false) (hi : s.selIndex = 0) (hres : s.result = .none) (hp : pointOfOp t.op t.point = true)
    (hq : phaseAtPoint s.seq t.point = true) (hd : s.done = false) (hl : s.lastop = t.op.opcode) (hc : CountersInv t)
    (hrec : t.records = []) (hrx : t.received = []) (hpage : t.point ≠ .rx .page ∧ t.point ≠ .tx .pageAck) (hack : AckInv t) : Inv s where
  fb := hf
  results := by simp [ResultInv, hr, hv, hi]
  idle := by
    intro h
    rw [ht] at h
    cases h
  task := by
    intro t' ht'
    rw [ht] at ht'
    cases ht'
    refine ⟨hp, hq, hd, hl, fun _ => hres, fun _ => ⟨hr, hv⟩, hrx ▸ List.nil_suffix, hc, ⟨by simp [hrec], ?_⟩, hack⟩
    split <;> simp_all

theorem reset_fbInv : FbInv State.reset := by refine ⟨?_, ?_, ?_⟩ <;> decide

/-- WAKE waiting for its acknowledgement. -/
def waitsWake : State := running .wake (.rx .wake) .wake

theorem inv_waitsWake : Inv waitsWake :=
  inv_running rfl reset_fbInv rfl rfl rfl rfl rfl rfl rfl rfl (by simp [CountersInv, newTask, cfg]) rfl rfl
    (by constructor <;> decide) trivial

/-! ### Encoding and commands -/

theorem witness_EncodeDecodeRoundTrip : (Instr.setper 65535).wf = true ∧ (Instr.crcByte 255).wf = true := by decide

theorem witness_OperandFields :
    (0xFFFFFF02#32).toNat % 256 = 0x02 ∧ (0xFFFF0010#32).toNat % 256 = 0x10 ∧ (0x0000FF11#32).toNat % 256 = 0x11 ∧
    (0x00010012#32).toNat % 256 = 0x12 ∧ (0xFFFFFF13#32).toNat % 256 = 0x13 ∧ (0x00000014#32).toNat % 256 = 0x14 ∧
    (0x00F50015#32).toNat % 256 = 0x15 ∧ (0xFFFF0021#32).toNat % 256 = 0x21 ∧
    (0xFFFFFF00#32).toNat % 256 ∉ [0x02, 0x10, 0x11, 0x12, 0x13, 0x14, 0x15, 0x21] ∧
    (0x00000000#32).toNat % 256 = (0xFFFFFF00#32).toNat % 256 := by decide

theorem witness_ReservedOpIllegal : State.reset.task = none ∧
    ∀ op ∈ [0x06, 0x0F, 0x16, 0x1F, 0x26, 0x3E, 0x40, 0xFF],
      ((0x06 ≤ op ∧ op ≤ 0x0F) ∨ (0x16 ≤ op ∧ op ≤ 0x1F) ∨ (0x26 ≤ op ∧ op ≤ 0x3E) ∨ 0x40 ≤ op) ∧
        (BitVec.ofNat 32 op).toNat % 256 = op := by decide

theorem witness_CommandWrite :
    (State.reset.task = none ∧ decodeWord 0x00000004 = .ok .verify) ∧
    goesOn (hostAccess (.write .word 0x000 0x00000004) State.reset) = true ∧
    (waitsWake.task ≠ none ∧ (0x0000003F#32).toNat % 256 = 0x3F) ∧
    (waitsWake.task ≠ none ∧ (0x00000001#32).toNat % 256 ≠ 0x3F) :=
  ⟨⟨rfl, rfl⟩, by decide +kernel, ⟨by decide, by decide⟩, by decide, by decide⟩

theorem witness_StepRunsAcceptedCommand :
    State.reset.task = none ∧ decodeTableWord 32 0xFFFF0021 = some (.setper 65535) := by decide

theorem witness_FinishWrites :
    waitsWake.task = some { newTask cfg .wake with point := .rx .wake } ∧ State.reset.task = none := ⟨rfl, rfl⟩

theorem witness_ResetInOneStep :
    cancelDue { waitsWake with inputs := [.reset] } = false ∧ State.reset.task = none ∧ State.reset.inputs = [] := by decide

theorem witness_NopAndIdleAbort :
    State.reset.task = none ∧ (0x00000000#32).toNat % 256 = 0x00 ∧ (0x0000003F#32).toNat % 256 = 0x3F := by decide

/-- ABORT comes while WAKE waits in its Rx, and while POLL_RT is in a pause. -/
theorem witness_AbortStopsWaiting :
    (let s := { waitsWake with inputs := [cmdInput 0x0000003F] }
     s.task = some { newTask cfg .wake with point := .rx .wake } ∧ (Point.rx .wake).waits = true ∧ s.abortReq = false ∧
       s.inputs = .host (.write .word 0x000 0x0000003F) :: [] ∧ (0x0000003F#32).toNat % 256 = 0x3F) ∧
    (let s := { running .pollRt (.pause .snapshot) .pause with inputs := [cmdInput 0xFFFFFF3F] }
     s.task = some { newTask cfg .pollRt with point := .pause .snapshot } ∧ (Point.pause .snapshot).waits = true ∧
       s.abortReq = false ∧ s.inputs = .host (.write .word 0x000 0xFFFFFF3F) :: [] ∧
       (0xFFFFFF3F#32).toNat % 256 = 0x3F) :=
  ⟨⟨rfl, rfl, rfl, rfl, by decide⟩, rfl, rfl, rfl, rfl, by decide⟩

/-- An abort request during the wake request; after each escape byte: DOWNLOAD, POLL_ARC in its second and in its third attempt. -/
theorem witness_AbortAfterTx_escape :
    (let s := { running .wake (.tx .wake) .wake with abortReq := true }
     s.task = some { newTask cfg .wake with point := .tx .wake } ∧ s.abortReq = true ∧ s.inputs = []) ∧
    (let t := { newTask cfg .download with point := .tx .escape }
     let s := { State.reset with seq := .headerSent, lastop := 0x24, abortReq := true, task := some t }
     s.task = some t ∧ t.point = .tx .escape ∧ s.abortReq = true ∧ s.inputs = [] ∧ t.op ≠ .pollArc) ∧
    (let t := { newTask cfg .pollArc with point := .tx .escape, kd := 2 }
     let s := { State.reset with seq := .pageLoop, lastop := 0x25, abortReq := true, task := some t }
     s.task = some t ∧ t.point = .tx .escape ∧ s.abortReq = true ∧ s.inputs = [] ∧ t.op = .pollArc ∧ t.kd < 3) ∧
    (let t := { newTask cfg .pollArc with point := .tx .escape, kd := 3 }
     let s := { State.reset with seq := .pageLoop, lastop := 0x25, abortReq := true, task := some t }
     s.task = some t ∧ t.point = .tx .escape ∧ s.abortReq = true ∧ s.inputs = [] ∧ t.op = .pollArc ∧ 3 ≤ t.kd) :=
  ⟨⟨rfl, rfl, rfl⟩, ⟨rfl, rfl, rfl, rfl, by decide⟩, ⟨rfl, rfl, rfl, rfl, rfl, by decide⟩, rfl, rfl, rfl, rfl, rfl,
    by decide⟩

/-- An abort request during a header's acknowledgement, with pages and without, and a page's, not the last and the last. -/
theorem witness_AbortAfterTx :
    (let t := { newTask cfg .download with point := .tx .headerAck, rxbuf := header2 }
     let s := { State.reset with seq := .headerSent, lastop := 0x24, abortReq := true, task := some t }
     s.task = some t ∧ t.point = .tx .headerAck ∧ s.abortReq = true ∧ s.inputs = [] ∧ le16 t.rxbuf 0 ≠ 0) ∧
    (let t := { newTask cfg .download with point := .tx .headerAck, rxbuf := [0x00, 0x00, 0x00, 0x00, 0x00, 0x00] }
     let s := { State.reset with seq := .headerSent, lastop := 0x24, abortReq := true, task := some t }
     s.task = some t ∧ t.point = .tx .headerAck ∧ s.abortReq = true ∧ s.inputs = [] ∧ le16 t.rxbuf 0 = 0) ∧
    (let s := { lastPage with pages := 2, abortReq := true }
     s.task = lastPage.task ∧ s.abortReq = true ∧ s.inputs = [] ∧ s.pidx.toNat + 1 < s.pages.toNat) ∧
    (let s := { lastPage with abortReq := true }
     s.task = lastPage.task ∧ s.abortReq = true ∧ s.inputs = [] ∧ s.pages.toNat ≤ s.pidx.toNat + 1) :=
  ⟨⟨rfl, rfl, rfl, rfl, by decide⟩, ⟨rfl, rfl, rfl, rfl, by decide⟩, ⟨rfl, rfl, rfl, by decide⟩, rfl, rfl, rfl, by decide⟩

/-! ### CRC -/

theorem witness_FrameResidue : verify cfg header1 = true ∧ 47 < 8 * header1.length := by decide +kernel

theorem witness_CrcClrRule : State.reset.task = none := rfl

theorem witness_CrcByteRule : State.reset.task = none ∧ 255 < 256 ∧
    let s := { State.reset with done := true }
    s.task = none ∧ s.acc = 0x0000 ∧ s.abortReq = false ∧ s.code = .ok ∧ s.done = true := by decide

theorem witness_CrcBufRule : (loaded digits9).task = none ∧ digits9.length = (loaded digits9).len.toNat ∧
    FbHolds (loaded digits9) 0 digits9 := ⟨rfl, by decide, holds_loaded _⟩

theorem witness_VerifyRule : (loaded []).task = none ∧ ([] : List Byte).length = (loaded []).len.toNat ∧
    FbHolds (loaded []) 0 [] := ⟨rfl, by decide, holds_loaded _⟩

/-- LEN = 511 overflows; LEN = 510, the largest length accepted, and LEN = 0 do not. -/
theorem witness_CrcAppendRule :
    512 < ({ State.reset with len := 511 } : State).len.toNat + 2 ∧
    (let bs := List.replicate 510 (0x00 : Byte)
     bs.length = (loaded bs).len.toNat ∧ FbHolds (loaded bs) 0 bs ∧ (loaded bs).len.toNat + 2 ≤ 512) ∧
    (loaded []).len.toNat + 2 ≤ 512 := by
  refine ⟨by decide, ⟨?_, holds_loaded _, ?_⟩, by decide⟩
  · rw [len_loaded, List.length_replicate]
  · rw [len_loaded, List.length_replicate]

/-! ### Record codec -/

theorem witness_DecimalText : 0 < 1 := by decide

/-- One byte too few, and exactly enough. -/
theorem witness_DecSnapRule : ({ State.reset with len := 98 } : State).len.toNat < 0 + 99 ∧
    (loaded snap1).task = none ∧ 0 + 99 ≤ (loaded snap1).len.toNat ∧ snap1.length = 99 ∧ FbHolds (loaded snap1) 0 snap1 :=
  ⟨by decide, rfl, by decide +kernel, by decide +kernel, holds_loaded _⟩

theorem witness_DecArcaRule : ({ State.reset with len := 52 } : State).len.toNat < 1 + 52 ∧
    (loaded rec1).task = none ∧ 0 + 52 ≤ (loaded rec1).len.toNat ∧ rec1.length = 52 ∧ FbHolds (loaded rec1) 0 rec1 :=
  ⟨by decide, rfl, by decide +kernel, by decide +kernel, holds_loaded _⟩

theorem witness_DecArcbRule : ({ State.reset with len := 51 } : State).len.toNat < 0 + 52 ∧
    (loaded rec1).task = none ∧ 0 + 52 ≤ (loaded rec1).len.toNat ∧ rec1.length = 52 ∧ FbHolds (loaded rec1) 0 rec1 :=
  ⟨by decide, rfl, by decide +kernel, by decide +kernel, holds_loaded _⟩

/-- The length clauses, and each side of the flag: known or probed, B and A. -/
theorem witness_DecArcRule : ({ State.reset with len := 51 } : State).len.toNat < 0 + 52 ∧
    (loaded rec1).task = none ∧ 0 + 52 ≤ (loaded rec1).len.toNat ∧ rec1.length = 52 ∧ FbHolds (loaded rec1) 0 rec1 ∧
    (loaded rec1).rev = .unknown ∧ rec1[42]? = some 0x00 ∧ sent[42]? ≠ some 0x00 ∧
    0 + 52 ≤ (loaded sent).len.toNat ∧ sent.length = 52 ∧ FbHolds (loaded sent) 0 sent ∧
    ({ loaded sent with rev := .b } : State).rev = .b ∧ ({ loaded rec1 with rev := .a } : State).rev = .a :=
  ⟨by decide, rfl, by decide +kernel, by decide +kernel, holds_loaded _, rfl, by decide +kernel, by decide +kernel,
    by decide +kernel, by decide +kernel, holds_loaded _, rfl, rfl⟩

theorem witness_DecHdrRule : ({ State.reset with len := 6 } : State).len.toNat < 1 + 6 ∧
    (loaded header1).task = none ∧ 0 + 6 ≤ (loaded header1).len.toNat ∧ FbHolds (loaded header1) 0 header1 :=
  ⟨by decide, rfl, by decide, holds_loaded _⟩

theorem witness_DecPageRule : ({ State.reset with len := 512 } : State).len.toNat < 246 + 267 ∧
    (({ State.reset with len := 512 } : State).len.toNat ≤ 512 ∧ 245 < 246) ∧
    (let blob := List.replicate 260 (0x00 : Byte)
     let bs := (0x00 : Byte) :: (blob ++ [0x00, 0x00, 0x00, 0x00] ++ [0x00, 0x00])
     (loaded bs).task = none ∧ 0 + 267 ≤ (loaded bs).len.toNat ∧ blob.length = 260 ∧ FbHolds (loaded bs) 0 bs) :=
  ⟨by decide, by decide, rfl, by rw [len_loaded]; decide +kernel, List.length_replicate, holds_loaded _⟩

/-! ### Serial operations -/

theorem witness_SerialOperationsStart : State.reset.task = none ∧ State.reset.abortReq = false := by decide

theorem reset_ready (as : List RxAnswer) : Ready { State.reset with answers := as } := ⟨rfl, rfl, rfl⟩

theorem witness_MachineFollowsProcedures : Ready State.reset := ⟨rfl, rfl, rfl⟩

/-- Two failed attempts, then the acknowledgement; and three failed ones. -/
theorem witness_WakeTries :
    (let bad := [RxAnswer.timeout, .data [0x0D, 0x0A]]
     Ready { State.reset with answers := bad ++ .data [0x0A, 0x0D] :: [] } ∧
       (∀ a ∈ bad, clampAnswer 2 a ≠ .data [0x0A, 0x0D]) ∧ bad.length ≤ 2) ∧
    (let bad := [RxAnswer.timeout, .data [0x0D, 0x0A], .data [0x0A]]
     Ready { State.reset with answers := bad ++ [] } ∧
       (∀ a ∈ bad, clampAnswer 2 a ≠ .data [0x0A, 0x0D]) ∧ bad.length = 3) :=
  ⟨⟨reset_ready _, by decide, by decide⟩, reset_ready _, by decide, by decide⟩

/-- SETPER 65535 after two failed wakes and two wrong replies, then its confirmation, and then a timeout; CLRLOG after three wrong
replies; and three failed wakes. -/
theorem witness_CommandEndings :
    (let badW := [RxAnswer.timeout, .data [0x0D, 0x0A]]
     let badC := List.replicate 2 (RxAnswer.data [0x0A, 0x0D, 0x4F, 0x4B, 0x0A, 0x0A])
     65535 < 2 ^ 16 ∧ (∀ a ∈ badW, clampAnswer 2 a ≠ .data [0x0A, 0x0D]) ∧
       (∀ a ∈ badC, ∃ bs, a = .data bs ∧ bs.length = 6 ∧ bs ≠ [0x0A, 0x0D, 0x4F, 0x4B, 0x0A, 0x0D]) ∧
       badW.length ≤ 2 ∧ badC.length ≤ 2 ∧
       Ready { State.reset with
         answers := badW ++ .data [0x0A, 0x0D] :: (badC ++ .data [0x0A, 0x0D, 0x4F, 0x4B, 0x0A, 0x0D] :: []) } ∧
       Ready { State.reset with answers := badW ++ .data [0x0A, 0x0D] :: (badC ++ .timeout :: []) }) ∧
    (let badW := ([] : List RxAnswer)
     let badC := List.replicate 3 (RxAnswer.data [0x15])
     (∀ a ∈ badW, clampAnswer 2 a ≠ .data [0x0A, 0x0D]) ∧
       (∀ a ∈ badC, ∃ bs, a = .data bs ∧ bs.length = 1 ∧ bs ≠ [0x06]) ∧ badW.length ≤ 2 ∧ badC.length = 3 ∧
       Ready { State.reset with answers := badW ++ .data [0x0A, 0x0D] :: (badC ++ []) }) ∧
    (let badW := List.replicate 3 RxAnswer.timeout
     (∀ a ∈ badW, clampAnswer 2 a ≠ .data [0x0A, 0x0D]) ∧ badW.length = 3 ∧
       Ready { State.reset with answers := badW ++ [] }) := by
  refine ⟨⟨by decide, by decide, ?_, by decide, by decide, reset_ready _, reset_ready _⟩,
    ⟨by decide, ?_, by decide, by decide, reset_ready _⟩, by decide, by decide, reset_ready _⟩
  · intro a ha
    exact ⟨_, List.eq_of_mem_replicate ha, by decide, by decide⟩
  · intro a ha
    exact ⟨_, List.eq_of_mem_replicate ha, by decide, by decide⟩

theorem verify_snap1 : verify cfg snap1 = true := (verify_iff _ _).2 ⟨by decide +kernel, test_crc_snap1.1⟩

theorem verify_snap1x : verify cfg snap1x = false := by
  rw [Bool.eq_false_iff]
  intro h
  have := ((verify_iff _ _).1 h).2
  rw [test_crc_snap1.2] at this
  exact absurd this (by decide)

/-- Two frames that fail the CRC, then a good one, and then a timeout; and three that fail. -/
theorem witness_PollRtReads :
    (let bad := [snap1x, snap1x]
     (∀ f ∈ bad, f.length = 99 ∧ verify cfg f = false) ∧ bad.length ≤ 2 ∧ snap1.length = 99 ∧ verify cfg snap1 = true ∧
       Ready { State.reset with
         answers := .data [0x0A, 0x0D] :: .data [0x06] :: (bad.map .data ++ .data snap1 :: []) } ∧
       Ready { State.reset with
         answers := .data [0x0A, 0x0D] :: .data [0x06] :: (bad.map .data ++ .timeout :: []) }) ∧
    (let bad := [snap1x, snap1x, snap1x]
     (∀ f ∈ bad, f.length = 99 ∧ verify cfg f = false) ∧ bad.length = 3 ∧
       Ready { State.reset with answers := .data [0x0A, 0x0D] :: .data [0x06] :: (bad.map .data ++ []) }) := by
  have h : snap1x.length = 99 := by decide +kernel
  have hs : snap1.length = 99 := by decide +kernel
  refine ⟨⟨?_, rfl.le, hs, verify_snap1, reset_ready _, reset_ready _⟩, ?_, rfl, reset_ready _⟩ <;>
    simp [h, verify_snap1x]

theorem verify_page1 : verify cfg page1 = true := (verify_iff _ _).2 ⟨by decide +kernel, test_crc_page1⟩

theorem verify_page1x : verify cfg page1x = false := by
  rw [Bool.eq_false_iff]
  intro h
  have := ((verify_iff _ _).1 h).2
  rw [test_crc_page1x] at this
  exact absurd this (by decide)

theorem page1_length : page1.length = 267 := by decide +kernel
theorem page1x_length : page1x.length = 267 := by decide +kernel

/-- One page, and none. -/
theorem witness_DownloadCollects :
    header1.length = 6 ∧ verify cfg header1 = true ∧ (le16 header1 0).toNat = [page1].length ∧
    (∀ f ∈ [page1], f.length = 267 ∧ verify cfg f = true) ∧
    verify cfg [0x00, 0x00, 0x00, 0x00, 0x00, 0x00] = true ∧
    (le16 [0x00, 0x00, 0x00, 0x00, 0x00, 0x00] 0).toNat = ([] : List (List Byte)).length ∧
    Ready { State.reset with
      answers := .data [0x0A, 0x0D] :: .data [0x06] :: .data [0x06] :: .data header1 :: ([page1].map .data ++ []) } := by
  refine ⟨rfl, by decide +kernel, by decide, ?_, by decide +kernel, by decide, reset_ready _⟩
  simp [page1_length, verify_page1]

theorem witness_DownloadDiscards :
    header2.length = 6 ∧ verify cfg header2 = true ∧ [page1].length < (le16 header2 0).toNat ∧
    (∀ f ∈ [page1], f.length = 267 ∧ verify cfg f = true) ∧ page1x.length = 267 ∧ verify cfg page1x = false ∧
    Ready { State.reset with
      answers := .data [0x0A, 0x0D] :: .data [0x06] :: .data [0x06] :: .data header2 ::
        ([page1].map .data ++ .data page1x :: []) } := by
  refine ⟨rfl, by decide +kernel, by decide, ?_, page1x_length, verify_page1x, reset_ready _⟩
  simp [page1_length, verify_page1]

/-- V-PAGE-1 gives a record above the watermark (0, 0), and none above that record's own pair. -/
theorem witness_PollArcSelects :
    (Ready { State.reset with
        answers := .data [0x0A, 0x0D] :: .data [0x06] :: .data [0x06] :: .data header1 :: ([page1].map .data ++ []) } ∧
      header1.length = 6 ∧ verify cfg header1 = true ∧ (le16 header1 0).toNat = [page1].length ∧
      ∀ f ∈ [page1], f.length = 267 ∧ verify cfg f = true) ∧
    ∃ e, [e] = (walkPages cfg (le16 header1 2).toNat 0 [page1] (.unknown, [])).2 ∧ Selected (0, 0) [e] 0 e ∧
      ∀ x ∈ [e], ¬ Newer (stampOf x.record) (0x2ECF, 1430) := by
  have h : stampOf (decodeArc cfg .b page1 1).record = (0x2ECF, 1430) := by decide +kernel
  refine ⟨⟨reset_ready _, rfl, by decide +kernel, by decide, by simp [page1_length, verify_page1]⟩,
    decodeArc cfg .b page1 1, by decide +kernel, ⟨rfl, ?_, ?_, ?_⟩, ?_⟩
  · rw [h]; exact .inl (by decide)
  · simp [Newer, h]
  · intro k x hk; omega
  · simp [Newer, h]

/-- A wrong acknowledgement after two failed wakes and two wrong confirmations, a bad page after a good one, and a bad header; and
a bad first page. -/
theorem witness_PollArcGivesUp :
    let a1 : BadAttempt := ⟨[.timeout, .data [0x0D, 0x0A]], [0x15, 0x00], .wrongAck 0x15⟩
    let a2 : BadAttempt := ⟨[], [], .badPage header2 [page1] page1x⟩
    let a3 : BadAttempt := ⟨[], [], .badHeader headerBad⟩
    let a4 : BadAttempt := ⟨[], [], .badPage header1 [] page1x⟩
    a1.Ok cfg ∧ a2.Ok cfg ∧ a3.Ok cfg ∧ a4.Ok cfg ∧
      Ready { State.reset with answers := a1.answers ++ a2.answers ++ a3.answers ++ [] } ∧
      Ready { State.reset with answers := a3.answers ++ a1.answers ++ a4.answers ++ [] } := by
  refine ⟨⟨by decide, by decide, by decide, by decide, ?_⟩, ⟨by decide, by decide, by decide, by decide, ?_⟩,
    ⟨by decide, by decide, by decide, by decide, rfl, by decide +kernel⟩, ⟨by decide, by decide, by decide, by decide, ?_⟩,
    reset_ready _, reset_ready _⟩
  · exact (by decide : (0x15 : Byte) ≠ 0x06)
  · exact ⟨rfl, by decide +kernel, by decide, by simp [page1_length, verify_page1], page1x_length, verify_page1x⟩
  · exact ⟨rfl, by decide +kernel, by decide, by simp, page1x_length, verify_page1x⟩

/-- A probed slot that is kept, a sentinel under a known flag. -/
theorem witness_SlotRule : LayoutsOk cfg ∧
    (Rev.unknown = .unknown ∧ u8 page1 (1 + cfg.discOffset) = 0x00 ∧
      ¬ (le16 page1 1 = cfg.sentinel ∧ le16 page1 (1 + 2) = cfg.sentinel)) ∧
    (Rev.a ≠ .unknown ∧ le16 page1 53 = cfg.sentinel ∧ le16 page1 (53 + 2) = cfg.sentinel) :=
  ⟨test_layouts_ok, ⟨rfl, by decide +kernel, by decide +kernel⟩, by decide, by decide +kernel, by decide +kernel⟩

/-! ### Rules of the whole machine: each clause's change happens in some step -/

/-- A host write to WM; the end of a POLL_ARC that selects a record. -/
theorem witness_WatermarkOnlyAdvances :
    (let s := { State.reset with inputs := [.host (.write .word 0x010 0x2ECF0596)] }
     step s = .next (nextOf (step s)) ∧ resetNext s = false ∧
       ((nextOf (step s)).wmDate, (nextOf (step s)).wmTime) ≠ (s.wmDate, s.wmTime)) ∧
    (step lastPage = .next (nextOf (step lastPage)) ∧ resetNext lastPage = false ∧
      ((nextOf (step lastPage)).wmDate, (nextOf (step lastPage)).wmTime) ≠ (lastPage.wmDate, lastPage.wmTime)) :=
  ⟨⟨eq_next_of_goesOn (by decide +kernel), by decide +kernel, by decide +kernel⟩,
    eq_next_of_goesOn (by decide +kernel), by decide +kernel, by decide +kernel⟩

/-- A known flag over a download's page; an unknown one probed by DEC_ARC and by a page. -/
theorem witness_RevisionSticky :
    (let s := { lastPage with rev := .a }
     step s = .next (nextOf (step s)) ∧ resetNext s = false ∧ s.rev ≠ .unknown) ∧
    (let s := (loaded rec1).withFetchWord 32 0x00000013
     step s = .next (nextOf (step s)) ∧ (nextOf (step s)).rev ≠ s.rev) ∧ (nextOf (step lastPage)).rev ≠ lastPage.rev :=
  ⟨⟨eq_next_of_goesOn (by decide +kernel), by decide +kernel, by decide⟩,
    ⟨eq_next_of_goesOn (by decide +kernel), by decide +kernel⟩, by decide +kernel⟩

theorem witness_SequencerIgnoresHostState : waitsWake.task ≠ none ∧ waitsWake.inputs = [] := by decide

/-- The state after one host access from `s`. -/
def afterAccess (a : Access) (s : State) : State := nextOf (step { s with inputs := [.host a] })

/-- The state after one command from `s`. -/
def afterCmd (w : Nat) (s : State) : State := nextOf (step (s.withFetchWord 32 w))

theorem witness_RegisterWriters :
    (afterCmd 0x00004102 .reset).acc ≠ State.reset.acc ∧ (afterCmd 0x00000004 (loaded header1)).valid ≠ false ∧
    (afterCmd 0x00000005 .reset).len ≠ State.reset.len ∧
    (afterAccess (.write .word 0x00C 512) .reset).len ≠ State.reset.len ∧
    (afterCmd 0x00000005 .reset).fb ≠ State.reset.fb ∧
    (afterAccess (.write .byte 0x2FF 7) .reset).fb ≠ State.reset.fb ∧
    (afterCmd 0x000000FF .reset).cmd ≠ State.reset.cmd ∧ resetNext (State.reset.withFetchWord 32 0x000000FF) = false := by
  decide +kernel

theorem inv_host {s : State} (l : List Input) (h : Inv s) : Inv { s with inputs := l } := ⟨h.1, h.2, h.3, h.4⟩

theorem inv_reset : Inv { State.reset with inputs := [] } := inv_idle reset_fbInv rfl rfl rfl rfl rfl rfl

/-- An idle block that finished an operation and lost a write. -/
def idleOvr : State := { State.reset with done := true, ovr := true }

theorem inv_idleOvr : Inv idleOvr := inv_idle reset_fbInv rfl rfl rfl rfl rfl rfl

/-- BUSY set and cleared, DONE set and cleared, OVR set and cleared, each from a state of the invariant. -/
theorem witness_FlagRules :
    (Inv idleOvr ∧ (afterCmd 0x00000020 idleOvr).busy = true ∧ (afterCmd 0x00000020 idleOvr).done = false ∧
      (afterCmd 0x00000020 idleOvr).ovr = false) ∧
    (let s := { waitsWake with answers := [.data [0x0A, 0x0D]] }
     Inv s ∧ s.busy = true ∧ (nextOf (step s)).busy = false ∧ s.done = false ∧ (nextOf (step s)).done = true) ∧
    (Inv waitsWake ∧ waitsWake.ovr = false ∧ (afterAccess (.write .byte 0x100 7) waitsWake).ovr = true) :=
  ⟨⟨inv_idleOvr, by decide +kernel, by decide +kernel, by decide +kernel⟩,
    ⟨⟨inv_waitsWake.1, inv_waitsWake.2, inv_waitsWake.3, inv_waitsWake.4⟩, by decide, by decide +kernel, by decide,
      by decide +kernel⟩, inv_waitsWake, by decide, by decide +kernel⟩

/-- POLL_ARC, and DOWNLOAD, sending the escape byte for a bad header, the poll in its last attempt. -/
def lastEscape : State :=
  { State.reset with
    seq := .headerSent, lastop := 0x25, task := some { newTask cfg .pollArc with point := .tx .escape, kd := 3 } }

def downloadEscape : State :=
  { State.reset with seq := .headerSent, lastop := 0x24, task := some { newTask cfg .download with point := .tx .escape } }

theorem inv_lastEscape : Inv lastEscape :=
  inv_running rfl reset_fbInv rfl rfl rfl rfl rfl rfl rfl rfl (by simp [CountersInv, newTask, cfg]) rfl rfl
    (by constructor <;> decide) trivial

theorem inv_downloadEscape : Inv downloadEscape :=
  inv_running rfl reset_fbInv rfl rfl rfl rfl rfl rfl rfl rfl (by simp [CountersInv, newTask, cfg]) rfl rfl
    (by constructor <;> decide) trivial

/-- Each outcome code but OK, raised in a step from a state of the invariant. -/
theorem witness_OutcomeCodes :
    (Inv { waitsWake with task := some { newTask cfg .wake with point := .rx .wake, kw := 3 }, answers := [.timeout] } ∧
      (nextOf (step { waitsWake with
        task := some { newTask cfg .wake with point := .rx .wake, kw := 3 }, answers := [.timeout] })).code =
          .deviceUnreachable) ∧
    (Inv lastEscape ∧ (nextOf (step lastEscape)).code = .noNewRecords) ∧
    (Inv downloadEscape ∧ (nextOf (step downloadEscape)).code = .noResult) ∧
    (Inv idleOvr ∧ (afterCmd 0x00000010 idleOvr).code = .decodeFail ∧ (afterCmd 0x00000006 idleOvr).code = .illegalOp) ∧
    (Inv { waitsWake with abortReq := true } ∧ (nextOf (step { waitsWake with abortReq := true })).code = .cancelled) ∧
    (Inv { State.reset with len := 511 } ∧ (afterCmd 0x00000005 { State.reset with len := 511 }).code = .bufOverflow) :=
  ⟨⟨inv_running rfl reset_fbInv rfl rfl rfl rfl rfl rfl rfl rfl (by simp [CountersInv, newTask, cfg]) rfl rfl
      (by constructor <;> decide) trivial, by decide +kernel⟩,
    ⟨inv_lastEscape, by decide +kernel⟩, ⟨inv_downloadEscape, by decide +kernel⟩,
    ⟨inv_idleOvr, by decide +kernel, by decide +kernel⟩,
    ⟨inv_running rfl reset_fbInv rfl rfl rfl rfl rfl rfl rfl rfl (by simp [CountersInv, newTask, cfg]) rfl rfl
      (by constructor <;> decide) trivial, by decide +kernel⟩,
    inv_idle ⟨rfl, by simp [State.reset], by decide⟩ rfl rfl rfl rfl rfl rfl, by decide +kernel⟩

/-- A Tx and an Rx that end. -/
theorem witness_SerialChannel :
    (nextOf (step (running .wake (.tx .wake) .wake))).txLog = [[0x0A]] ∧
    (nextOf (step { waitsWake with answers := [.data [0x0A, 0x0D]] })).rxLog.length = 1 ∧
    resetNext waitsWake = false := by decide +kernel

theorem witness_StepKeepsInv :
    Inv waitsWake ∧ step { waitsWake with answers := [.timeout] } =
      .next (nextOf (step { waitsWake with answers := [.timeout] })) :=
  ⟨inv_waitsWake, eq_next_of_goesOn (by decide +kernel)⟩

theorem witness_EveryOperationEnds : Inv waitsWake ∧ waitsWake.task ≠ none ∧ waitsWake.inputs = [] :=
  ⟨inv_waitsWake, by decide, rfl⟩

/-! ### Host accesses -/

theorem witness_RegisterReads : State.reset.task = none ∧ State.reset.rlist.length ≤ 327675 := by decide

theorem witness_ReadsHaveNoSideEffect :
    (∀ w addr v, Access.read .word 0x004 ≠ .write w addr v) ∧
    hostAccess (.read .word 0x004) waitsWake = .next (nextOf (hostAccess (.read .word 0x004) waitsWake)) ∧
    State.reset.task = none := ⟨by simp, rfl, rfl⟩

theorem witness_RegisterWrites :
    State.reset.task = none ∧ (0x00000200#32).toNat % 1024 ≤ 512 ∧ 512 < (0x00000201#32).toNat % 1024 ∧
    (0x01C#12).toNat ∈ [0x004, 0x008, 0x014, 0x018, 0x01C] ∧ waitsWake.task ≠ none ∧
    (0x004#12).toNat ∈ [0x004, 0x008, 0x00C, 0x010, 0x014, 0x018, 0x01C] := by decide

/-- The first and the last byte of FB. -/
theorem witness_FrameBufferAccess :
    (0x100#12).toNat = 0x100 + 0 ∧ (0x2FF#12).toNat = 0x100 + 511 ∧ 511 < 512 ∧ State.reset.task = none ∧
    Memory.read (loaded [7]).fb 0 = some 7 ∧ waitsWake.task ≠ none := by decide

/-- Each clause at the ends of its range, the accesses over an edge among them. -/
theorem witness_AddressMap :
    State.reset.task = none ∧ waitsWake.task ≠ none ∧
    ((0x000#12).toNat < 0x020 ∧ Width.byte ≠ .word) ∧ ((0x01F#12).toNat < 0x020 ∧ (0x01F#12).toNat % 4 ≠ 0) ∧
    ((0x01C#12).toNat < 0x020 ∧ (0x01C#12).toNat % 4 = 0) ∧
    (0x100 ≤ (0x100#12).toNat ∧ (0x100#12).toNat < 0x300 ∧ Width.word ≠ .byte) ∧
    (0x100 ≤ (0x2FE#12).toNat ∧ (0x2FE#12).toNat < 0x300 ∧ Width.half ≠ .byte) ∧
    (0x020 ≤ (0x0FF#12).toNat ∧ (0x0FF#12).toNat < 0x100 ∧ 0x100 < (0x0FF#12).toNat + Width.half.bytes) ∧
    (0x020 ≤ (0x0FD#12).toNat ∧ (0x0FD#12).toNat < 0x100 ∧ 0x100 < (0x0FD#12).toNat + Width.word.bytes) ∧
    (0x300 ≤ (0xFFF#12).toNat ∧ 0x1000 < (0xFFF#12).toNat + Width.half.bytes) ∧
    (0x020 ≤ (0x020#12).toNat ∧ (0x020#12).toNat + Width.word.bytes ≤ 0x100) ∧
    (0x020 ≤ (0x0FF#12).toNat ∧ (0x0FF#12).toNat + Width.byte.bytes ≤ 0x100) ∧
    (0x300 ≤ (0x300#12).toNat ∧ (0x300#12).toNat + Width.half.bytes ≤ 0x1000) ∧
    (0x300 ≤ (0xFFC#12).toNat ∧ (0xFFC#12).toNat + Width.word.bytes ≤ 0x1000) := by decide

/-- FB written up to its last byte but one, for every layout size. -/
theorem witness_UnwrittenByteFaults :
    State.reset.task = none ∧
    (let s := { State.reset with len := 510 }
     SomeUnwritten s 0 s.len.toNat ∧ s.len.toNat + 2 ≤ 512 ∧ 411 + 99 ≤ s.len.toNat ∧ SomeUnwritten s 411 99 ∧
     458 + 52 ≤ s.len.toNat ∧ SomeUnwritten s 458 52 ∧ 504 + 6 ≤ s.len.toNat ∧ SomeUnwritten s 504 6 ∧
     243 + 267 ≤ s.len.toNat ∧ SomeUnwritten s 243 267) ∧
    (0x2FF#12).toNat = 0x100 + 511 ∧ Memory.read State.reset.fb 511 = none :=
  ⟨rfl, ⟨⟨509, by decide, rfl⟩, by decide, by decide, ⟨98, by decide, rfl⟩, by decide, ⟨51, by decide, rfl⟩, by decide,
    ⟨5, by decide, rfl⟩, by decide, ⟨266, by decide, rfl⟩⟩, by decide, rfl⟩

end Sys2Proof.Tests
end

/-!
The decimal text of 00_scope.md R15: `dec` without its fuel, and from that equation the digits, the value and the
leading digit of `dec v`.
-/
namespace Sys2Proof.Proofs

open Sys2Proof.Machine

theorem asciiDigit_toNat {d : Nat} (h : d < 10) : (asciiDigit d).toNat = 0x30 + d := by
  have hfit : 0x30 + d < 2 ^ 8 := by omega
  rw [asciiDigit, BitVec.toNat_ofNat, Nat.mod_eq_of_lt hfit]

/-- More fuel than the number needs changes nothing. -/
theorem digits_eq_of_lt {f g v : Nat} (hf : v < f) (hg : v < g) : digits f v = digits g v := by
  induction f generalizing g v with
  | zero => omega
  | succ f ih =>
    cases g with
    | zero => omega
    | succ g =>
      by_cases hv : v < 10
      · simp [digits, hv]
      · have hq : digits f (v / 10) = digits g (v / 10) := ih (by omega) (by omega)
        simp [digits, hv, hq]

theorem dec_of_lt {v : Nat} (h : v < 10) : dec v = [asciiDigit v] := by
  simp [dec, digits, h]

theorem dec_of_le {v : Nat} (h : 10 ≤ v) : dec v = dec (v / 10) ++ [asciiDigit (v % 10)] := by
  have hfuel : digits v (v / 10) = dec (v / 10) := digits_eq_of_lt (by omega) (by omega)
  rw [← hfuel]
  simp [dec, digits, Nat.not_lt.mpr h]

/-- Induction along the digits of a number, as `dec` is read by `dec_of_lt` and `dec_of_le`. -/
theorem decimal_induction {P : Nat → Prop} (digit : ∀ v, v < 10 → P v)
    (snoc : ∀ v, 10 ≤ v → P (v / 10) → P v) (v : Nat) : P v := by
  induction v using Nat.strong_induction_on with
  | _ v ih =>
    by_cases hv : v < 10
    · exact digit v hv
    · exact snoc v (by omega) (ih (v / 10) (by omega))

theorem dec_ne_nil (v : Nat) : dec v ≠ [] := by
  by_cases hv : v < 10
  · simp [dec_of_lt hv]
  · simp [dec_of_le (Nat.not_lt.mp hv)]

theorem dec_mem_isDigit (v : Nat) : ∀ b ∈ dec v, 0x30 ≤ b.toNat ∧ b.toNat ≤ 0x39 := by
  have ascii {d : Nat} (hd : d < 10) : 0x30 ≤ (asciiDigit d).toNat ∧ (asciiDigit d).toNat ≤ 0x39 := by
    rw [asciiDigit_toNat hd]
    omega
  induction v using decimal_induction with
  | digit v hv => simpa [dec_of_lt hv] using ascii hv
  | snoc v hv ih =>
    intro b hb
    rw [dec_of_le hv, List.mem_append, List.mem_singleton] at hb
    obtain hb | rfl := hb
    · exact ih b hb
    · exact ascii (by omega)

theorem dec_value (v : Nat) : (dec v).foldl (fun n b => n * 10 + (b.toNat - 0x30)) 0 = v := by
  induction v using decimal_induction with
  | digit v hv => simp [dec_of_lt hv, asciiDigit_toNat hv]
  | snoc v hv ih =>
    have hlast : v % 10 < 10 := by omega
    rw [dec_of_le hv, List.foldl_append, ih]
    simp only [List.foldl_cons, List.foldl_nil, asciiDigit_toNat hlast]
    omega

/-- The leading digit is that of the quotients by 10, down to one that is a digit and not 0. -/
theorem dec_head_ne_zero {v : Nat} (hpos : 0 < v) : (dec v).head? ≠ some 0x30 := by
  induction v using decimal_induction with
  | digit v hv =>
    intro hhead
    have hbyte : asciiDigit v = 0x30 := by simpa [dec_of_lt hv] using hhead
    have hnat := asciiDigit_toNat hv
    rw [hbyte] at hnat
    change 0x30 = 0x30 + v at hnat
    omega
  | snoc v hv ih =>
    rw [dec_of_le hv, List.head?_append_of_ne_nil _ (dec_ne_nil _)]
    exact ih (by omega)

/-- Settles O23, each clause by induction along the digits of the number. -/
theorem decimalText : Obligations.DecimalText := fun v =>
  ⟨dec_mem_isDigit v, dec_value v, dec_head_ne_zero, dec_of_lt (by decide)⟩

end Sys2Proof.Proofs

/-!
What one step can do, read backwards from the state it leaves: the decoder and the address map, a host access, a write to
CMD with the operation it starts, and the step around them. Every rule of the whole machine is a case split over these.
-/
namespace Sys2Proof.Proofs

open Sys2Proof.Machine Sys2Proof.Laws

/-! ## The decoder (30_encoding.md R100, R102) -/

theorem opField_toNat (w : Word) : (opField w).toNat = w.toNat % 256 := by
  simp [opField]

theorem opcode_of_decodeWord {w : Word} {i : Instr} (h : decodeWord w = .ok i) : i.opcode = opField w := by
  unfold decodeWord at h
  split at h <;> cases h
  all_goals exact BitVec.eq_of_toNat_eq (by simp [*, Instr.opcode])

/-- The OP byte of a word, as a number, is that of the operation it decodes to. -/
theorem opcode_toNat_of_decodeWord {w : Word} {i : Instr} (h : decodeWord w = .ok i) :
    i.opcode.toNat = w.toNat % 256 := by
  rw [opcode_of_decodeWord h, opField_toNat]

theorem decodeWord_eq_abort_iff {w : Word} : decodeWord w = .ok .abort ↔ w.toNat % 256 = 0x3F := by
  constructor
  · intro h
    exact (opcode_toNat_of_decodeWord h).symm
  · intro h
    simp [decodeWord, opField_toNat, h]

theorem decodeWord_of_decodeTableWord {n w : Nat} {i : Instr} (h : decodeTableWord n w = some i) :
    decodeWord (tableWord n w) = .ok i := by
  unfold decodeTableWord at h
  split at h
  · rename_i j hj
    cases h
    exact hj
  · cases h

/-! ## The address map (20_memory.md R71) -/

theorem regAt_eq_some {a : Nat} {r : Reg} (h : regAt a = some r) : a = r.offset := by
  unfold regAt at h
  split at h <;> cases h <;> rfl

theorem locate_eq_reg {w : Width} {a : BitVec 12} {r : Reg} (h : locate w a = .reg r) :
    w = .word ∧ a = regAddr r := by
  unfold locate at h
  dsimp only at h
  split at h
  · cases h
  · split at h
    · cases w <;> cases h
    · split at h
      · rename_i hr _
        cases h
        refine ⟨rfl, ?_⟩
        rw [regAddr, ← regAt_eq_some hr, BitVec.ofNat_toNat, BitVec.setWidth_eq]
      · cases h

theorem locate_eq_fb {w : Width} {a : BitVec 12} {i : Nat} (h : locate w a = .fb i) :
    w = .byte ∧ a.toNat = 0x100 + i ∧ i < 0x200 := by
  unfold locate at h
  dsimp only at h
  split at h
  · cases h
  · split at h
    · rename_i hrange
      simp only [Bool.and_eq_true, decide_eq_true_eq] at hrange
      cases w with
      | byte =>
        have hi := Target.fb.inj h
        exact ⟨rfl, by omega, by omega⟩
      | half => cases h
      | word => cases h
    · split at h <;> cases h

/-! ## What an operation writes (30_encoding.md R102) -/

/-- What a serial operation clears when it starts (43_download.md R270, R279, R281, R286). -/
def cleared (op : SerialOp) (s : State) : State :=
  match op with
  | .wake => s
  | .setper _ => s
  | .clrlog => s
  | .pollRt => { s with result := .none }
  | .download => clearProg (clearSel { s with rlist := [] })
  | .pollArc => clearProg (clearSel { s with result := .none, rlist := [] })

/-- A serial operation clears its results and wakes the device. -/
theorem exec_serial (op : SerialOp) (s : State) :
    exec op.instr s = .next (startWake (newTask cfg op) (cleared op s)) := by
  cases op <;> rfl

@[simp] theorem cleared_done (op : SerialOp) (s : State) : (cleared op s).done = s.done := by cases op <;> rfl
@[simp] theorem cleared_abortReq (op : SerialOp) (s : State) : (cleared op s).abortReq = s.abortReq := by
  cases op <;> rfl
@[simp] theorem cleared_wmDate (op : SerialOp) (s : State) : (cleared op s).wmDate = s.wmDate := by cases op <;> rfl
@[simp] theorem cleared_wmTime (op : SerialOp) (s : State) : (cleared op s).wmTime = s.wmTime := by cases op <;> rfl

theorem cleared_kept (op : SerialOp) (s : State) : Kept s (cleared op s) := by
  cases op <;> exact ⟨rfl, rfl, rfl, rfl, rfl, rfl, rfl, rfl, rfl⟩

theorem startWake_cleared_kept (op : SerialOp) (t : Task) (s : State) : Kept s (startWake t (cleared op s)) :=
  (cleared_kept op s).then (startWake_kept t _)

/-- What a host-only operation writes before its `finish` (40_crc.md R133 to R138, 41_record_codec.md R186 to R192, 44_control.md
R320, R322). -/
inductive Computes (s : State) : Instr → State → Prop
  | control {i : Instr} (hi : i = .nop ∨ i = .abort) : Computes s i s
  | accumulate {i : Instr} (hi : 0x01 ≤ i.opcode.toNat ∧ i.opcode.toNat ≤ 0x03) (acc : Half) :
      Computes s i { s with acc := acc }
  | verify (acc : Half) (valid : Bool) : Computes s .verify { s with acc := acc, valid := valid }
  | overflow : Computes s .crcAppend s
  | append (acc v : Half) (hfit : s.lenNat + 2 ≤ cfg.fbSize) :
      Computes s .crcAppend
        { s with acc := acc, fb := memWrite s.fb s.lenNat (be16bytes v), len := BitVec.ofNat 10 (s.lenNat + 2) }
  | decode {i : Instr} (hi : 0x10 ≤ i.opcode.toNat ∧ i.opcode.toNat ≤ 0x15) (result : Result) (rev : Rev)
      (hrev : s.rev = .unknown ∨ rev = s.rev) : Computes s i { s with result := result, rev := rev }

/-- A decode operation finishes with RESULT cleared, or with what `k` makes of its input. -/
theorem decodeOp_next {s u : State} {p size : Nat} {k : List Byte → State → State} (h : decodeOp s p size k = .next u) :
    (∃ bs, u = finish .ok (k bs { s with result := .none })) ∨ u = finish .decodeFail { s with result := .none } := by
  unfold decodeOp at h
  dsimp only at h
  split at h
  · obtain ⟨bs, -, hk⟩ := withBytes_next h
    cases hk
    exact .inl ⟨bs, rfl⟩
  · cases h
    exact .inr rfl

theorem computes_of_decodeOp {s u : State} {i : Instr} {p size : Nat} {k : List Byte → State → State}
    (h : decodeOp s p size k = .next u) (hi : 0x10 ≤ i.opcode.toNat ∧ i.opcode.toNat ≤ 0x15)
    (hk : ∀ bs, ∃ result rev, k bs { s with result := .none } = { s with result := result, rev := rev } ∧
      (s.rev = .unknown ∨ rev = s.rev)) : ∃ code s', u = finish code s' ∧ Computes s i s' := by
  rcases decodeOp_next h with ⟨bs, rfl⟩ | rfl
  · obtain ⟨result, rev, hstate, hrev⟩ := hk bs
    exact ⟨_, _, by rw [hstate], .decode hi result rev hrev⟩
  · exact ⟨_, _, rfl, .decode hi .none s.rev (.inr rfl)⟩

theorem execCrcAppend_next {s u : State} (h : execCrcAppend s = .next u) :
    ∃ code s', u = finish code s' ∧ Computes s .crcAppend s' := by
  unfold execCrcAppend at h
  split at h
  · cases h
    exact ⟨_, _, rfl, .overflow⟩
  · obtain ⟨bs, -, hk⟩ := withBytes_next h
    cases hk
    exact ⟨_, _, rfl, .append _ _ (by omega)⟩

/-- While idle an operation is a host-only one, which computes and finishes, or a serial one, which starts. -/
theorem exec_next_of_idle {s u : State} {i : Instr} (hidle : s.task = none) (h : exec i s = .next u) :
    (∃ code s', u = finish code s' ∧ Computes s i s') ∨
    (∃ op : SerialOp, i = op.instr ∧ u = startWake (newTask cfg op) (cleared op s)) := by
  have serial (op : SerialOp) (h : exec op.instr s = .next u) :
      ∃ op' : SerialOp, op.instr = op'.instr ∧ u = startWake (newTask cfg op') (cleared op' s) := by
    rw [exec_serial] at h
    cases h
    exact ⟨op, rfl, rfl⟩
  cases i with
  | nop => cases h; exact .inl ⟨_, _, rfl, .control (.inl rfl)⟩
  | abort =>
    have hexec : exec .abort s = .next (finish .ok s) := by simp [exec, execAbort, busy_of_idle hidle]
    rw [hexec] at h
    cases h
    exact .inl ⟨_, _, rfl, .control (.inr rfl)⟩
  | crcClr => cases h; exact .inl ⟨_, _, rfl, .accumulate (by decide) _⟩
  | crcByte b => cases h; exact .inl ⟨_, _, rfl, .accumulate (by simp [Instr.opcode]) _⟩
  | crcBuf =>
    obtain ⟨bs, -, hk⟩ := withBytes_next h
    cases hk
    exact .inl ⟨_, _, rfl, .accumulate (by decide) _⟩
  | verify =>
    obtain ⟨bs, -, hk⟩ := withBytes_next h
    cases hk
    exact .inl ⟨_, _, rfl, .verify _ _⟩
  | crcAppend => exact .inl (execCrcAppend_next h)
  | decSnap p =>
    simp only [exec, execDecSnap] at h
    exact .inl (computes_of_decodeOp h (by simp [Instr.opcode]) fun bs => ⟨_, s.rev, rfl, .inr rfl⟩)
  | decArca p =>
    simp only [exec, execDecArca] at h
    exact .inl (computes_of_decodeOp h (by simp [Instr.opcode]) fun bs => ⟨_, s.rev, rfl, .inr rfl⟩)
  | decArcb p =>
    simp only [exec, execDecArcb] at h
    exact .inl (computes_of_decodeOp h (by simp [Instr.opcode]) fun bs => ⟨_, s.rev, rfl, .inr rfl⟩)
  | decArc p =>
    simp only [exec, execDecArc] at h
    refine .inl (computes_of_decodeOp h (by simp [Instr.opcode])
      fun bs => ⟨_, probe s.rev (u8 bs cfg.discOffset), rfl, ?_⟩)
    exact or_iff_not_imp_left.mpr (probe_of_known _)
  | decHdr p =>
    simp only [exec, execDecHdr] at h
    exact .inl (computes_of_decodeOp h (by simp [Instr.opcode]) fun bs => ⟨_, s.rev, rfl, .inr rfl⟩)
  | decPage p =>
    simp only [exec, execDecPage] at h
    exact .inl (computes_of_decodeOp h (by simp [Instr.opcode]) fun bs => ⟨_, s.rev, rfl, .inr rfl⟩)
  | wake => exact .inr (serial .wake h)
  | setper n => exact .inr (serial (.setper n) h)
  | clrlog => exact .inr (serial .clrlog h)
  | pollRt => exact .inr (serial .pollRt h)
  | download => exact .inr (serial .download h)
  | pollArc => exact .inr (serial .pollArc h)

/-! ## A write to CMD (10_state.md R32) -/

/-- What a write of `w` to CMD does in `s`. -/
inductive CommandEffect (w : Word) (s : State) : State → Prop
  | computes {i : Instr} {s' : State} (code : Code) (hidle : s.task = none) (hdec : decodeWord w = .ok i)
      (hcomp : Computes (accept w s) i s') : CommandEffect w s (finish code s')
  | starts {op : SerialOp} (hidle : s.task = none) (hdec : decodeWord w = .ok op.instr) :
      CommandEffect w s (startWake (newTask cfg op) (cleared op (accept w s)))
  | illegal (hidle : s.task = none) : CommandEffect w s (finish .illegalOp (accept w s))
  | aborts (hbusy : s.task ≠ none) : CommandEffect w s { s with abortReq := true }
  | lost (hbusy : s.task ≠ none) : CommandEffect w s (loseWrite s)

theorem writeCmd_of_idle {w : Word} {s : State} {i : Instr} (hidle : s.task = none) (hdec : decodeWord w = .ok i) :
    writeCmd w s = exec i (accept w s) := by
  simp [writeCmd, busy_of_idle hidle, hdec]

theorem writeCmd_reserved {w : Word} {s : State} {r : DecodeError} (hidle : s.task = none)
    (hdec : decodeWord w = .error r) : writeCmd w s = .next (finish .illegalOp (accept w s)) := by
  simp [writeCmd, busy_of_idle hidle, hdec]

theorem writeCmd_abort_of_busy {w : Word} {s : State} (hbusy : s.task ≠ none) (hdec : decodeWord w = .ok .abort) :
    writeCmd w s = .next { s with abortReq := true } := by
  have hb : s.busy = true := (busy_iff s).mpr hbusy
  simp [writeCmd, hb, hdec, exec, execAbort]

theorem writeCmd_lost_of_busy {w : Word} {s : State} (hbusy : s.task ≠ none) (hdec : decodeWord w ≠ .ok .abort) :
    writeCmd w s = .next (loseWrite s) := by
  have hb : s.busy = true := (busy_iff s).mpr hbusy
  unfold writeCmd
  split <;> simp_all

theorem commandEffect_of_writeCmd {w : Word} {s u : State} (h : writeCmd w s = .next u) : CommandEffect w s u := by
  by_cases hidle : s.task = none
  · cases hdec : decodeWord w with
    | error r =>
      rw [writeCmd_reserved hidle hdec] at h
      cases h
      exact .illegal hidle
    | ok i =>
      rw [writeCmd_of_idle hidle hdec] at h
      rcases exec_next_of_idle (s := accept w s) hidle h with ⟨code, s', rfl, hcomp⟩ | ⟨op, rfl, rfl⟩
      · exact .computes code hidle hdec hcomp
      · exact .starts hidle hdec
  · by_cases hdec : decodeWord w = .ok .abort
    · rw [writeCmd_abort_of_busy hidle hdec] at h
      cases h
      exact .aborts hidle
    · rw [writeCmd_lost_of_busy hidle hdec] at h
      cases h
      exact .lost hidle

/-! ## A host access (20_memory.md R70 to R73, 44_control.md R321, R324) -/

/-- What a host access does in `s`. -/
inductive HostEffect (s : State) : Access → State → Prop
  | reads {a : Access} (d : ReadData) (n : Nat) : HostEffect s a { s with rdata := some d, draws := n }
  | commands {w : Word} {u : State} (hcmd : CommandEffect w s u) : HostEffect s (.write .word 0x000 w) u
  | writesLen (v : Word) (hidle : s.task = none) (hlegal : (v.extractLsb' 0 10).toNat ≤ cfg.fbSize) :
      HostEffect s (.write .word 0x00C v) { s with len := v.extractLsb' 0 10 }
  | writesWm (v : Word) (hidle : s.task = none) : HostEffect s (.write .word 0x010 v) (writeWm v s)
  | writesFb {a : BitVec 12} {i : Nat} (v : Word) (hidle : s.task = none) (haddr : a.toNat = 0x100 + i)
      (hi : i < 0x200) : HostEffect s (.write .byte a v) { s with fb := Memory.write s.fb i (v.extractLsb' 0 8) }
  | loses {w : Width} {a : BitVec 12} {v : Word} (hbusy : s.task ≠ none) : HostEffect s (.write w a v) (loseWrite s)
  | ignores {a : Access} : HostEffect s a s

theorem ignoreWrite_effect (w : Width) (a : BitVec 12) (v : Word) (s : State) :
    HostEffect s (.write w a v) (ignoreWrite s) := by
  unfold ignoreWrite
  split
  · exact .loses ((busy_iff s).mp ‹_›)
  · exact .ignores

theorem writeReg_effect {r : Reg} {v : Word} {s u : State} (h : writeReg r v s = .next u) :
    HostEffect s (.write .word (regAddr r) v) u := by
  cases r with
  | cmd => exact .commands (commandEffect_of_writeCmd h)
  | fblen =>
    cases h
    split
    · exact .loses ((busy_iff s).mp ‹_›)
    · unfold writeFblen
      split
      · exact .writesLen v (busy_eq_false.mp (Bool.not_eq_true _ ▸ ‹_›)) ‹_›
      · exact .ignores
  | wm =>
    cases h
    split
    · exact .loses ((busy_iff s).mp ‹_›)
    · exact .writesWm v (busy_eq_false.mp (Bool.not_eq_true _ ▸ ‹_›))
  | status => cases h; exact ignoreWrite_effect _ _ v s
  | crc => cases h; exact ignoreWrite_effect _ _ v s
  | rlcnt => cases h; exact ignoreWrite_effect _ _ v s
  | sel => cases h; exact ignoreWrite_effect _ _ v s
  | prog => cases h; exact ignoreWrite_effect _ _ v s

theorem writeFb_effect {a : BitVec 12} {i : Nat} (v : Word) (s : State) (haddr : a.toNat = 0x100 + i) (hi : i < 0x200) :
    HostEffect s (.write .byte a v) (writeFb i (v.extractLsb' 0 8) s) := by
  unfold writeFb
  split
  · exact .loses ((busy_iff s).mp ‹_›)
  · exact .writesFb v (busy_eq_false.mp (Bool.not_eq_true _ ▸ ‹_›)) haddr hi

theorem readReg_effect (a : Access) (r : Reg) (s : State) : HostEffect s a (readReg r s) := by
  unfold readReg
  split
  · exact .reads _ s.draws
  · exact .reads _ (s.draws + 1)

theorem readFb_effect {a : Access} {i : Nat} {s u : State} (h : readFb i s = .next u) : HostEffect s a u := by
  unfold readFb at h
  split at h
  · cases h
    exact .reads _ (s.draws + 1)
  · split at h <;> cases h
    exact .reads _ s.draws

theorem hostEffect_of_hostAccess {a : Access} {s u : State} (h : hostAccess a s = .next u) : HostEffect s a u := by
  cases a with
  | read w addr =>
    simp only [hostAccess] at h
    split at h
    · cases h; exact readReg_effect _ _ s
    · exact readFb_effect h
    · cases h; exact .reads _ s.draws
    · cases h
  | write w addr v =>
    simp only [hostAccess] at h
    split at h
    · rename_i r hloc
      obtain ⟨rfl, rfl⟩ := locate_eq_reg hloc
      exact writeReg_effect h
    · rename_i i hloc
      obtain ⟨rfl, haddr, hi⟩ := locate_eq_fb hloc
      cases h
      exact writeFb_effect v s haddr hi
    · cases h; exact ignoreWrite_effect _ _ v s
    · cases h
  | readResult =>
    cases h
    split
    · exact .reads _ (s.draws + 1)
    · exact .reads _ s.draws
  | readRlist =>
    cases h
    split
    · exact .reads _ (s.draws + 1)
    · exact .reads _ s.draws

/-! ## One step (10_state.md R30, 20_memory.md R85) -/

/-- What a step does in `s`. -/
inductive StepEffect (s : State) : State → Prop
  | cancels (hdue : cancelDue s = true) : StepEffect s (cancel cfg s)
  | advances {t : Task} (l : List Input) (htask : s.task = some t) : StepEffect s (advance cfg { s with inputs := l })
  | accesses {a : Access} {rest : List Input} {u : State} (hin : s.inputs = .host a :: rest)
      (heff : HostEffect { s with inputs := rest } a u) : StepEffect s u
  | listens (l : List Input) (d : Option ReadData) : StepEffect s { s with inputs := l, rdata := d }
  | resets {rest : List Input} (hin : s.inputs = .reset :: rest) : StepEffect s (resetBlock { s with inputs := rest })

theorem advance_of_idle {c : Config} {s : State} (h : s.task = none) : advance c s = s := by simp [advance, h]

/-- Moving the sequencer advances a running operation, and leaves an idle block alone. -/
theorem stepEffect_advance (s : State) (l : List Input) : StepEffect s (advance cfg { s with inputs := l }) := by
  by_cases htask : s.task = none
  · rw [advance_of_idle (s := { s with inputs := l }) htask]
    exact .listens l s.rdata
  · obtain ⟨t, ht⟩ := Option.ne_none_iff_exists'.mp htask
    exact .advances l ht

theorem stepEffect_waitDone (s : State) (rest : List Input) : StepEffect s (waitDone rest s) := by
  unfold waitDone
  split
  · exact stepEffect_advance s s.inputs
  · split
    · exact .listens rest _
    · exact .listens s.inputs s.rdata

theorem stepEffect_of_step {s u : State} (h : step s = .next u) : StepEffect s u := by
  by_cases hdue : cancelDue s = true
  · rw [step_of_cancelDue hdue] at h
    cases h
    exact .cancels hdue
  · have hdue : cancelDue s = false := Bool.not_eq_true _ ▸ hdue
    match hin : s.inputs with
    | [] =>
      rw [step_of_nil hdue hin] at h
      cases h
      exact stepEffect_advance s s.inputs
    | .host a :: rest =>
      rw [step_of_host hdue hin] at h
      exact .accesses hin (hostEffect_of_hostAccess h)
    | .proceed :: rest =>
      rw [step_of_proceed hdue hin] at h
      cases h
      exact stepEffect_advance s rest
    | .waitDone :: rest =>
      rw [step_of_waitDone hdue hin] at h
      cases h
      exact stepEffect_waitDone s rest
    | .reset :: rest =>
      rw [step_of_reset hdue hin] at h
      cases h
      exact .resets hin

theorem resetNext_of_inputs {s : State} {rest : List Input} (h : s.inputs = .reset :: rest) : resetNext s = true := by
  simp [resetNext, h]

theorem acceptedWord_of_inputs {s : State} {w : Word} {rest : List Input} (hidle : s.task = none)
    (hin : s.inputs = .host (.write .word 0x000 w) :: rest) : acceptedWord s = some w := by
  simp [acceptedWord, hidle, hin]

/-- The accepted word's OP byte is the opcode of the operation it decodes to. -/
theorem acceptedOp_of_decodeWord {s : State} {w : Word} {i : Instr} (hw : acceptedWord s = some w)
    (hdec : decodeWord w = .ok i) : acceptedOp s = some i.opcode.toNat := by
  rw [acceptedOp, hw, opcode_toNat_of_decodeWord hdec]
  rfl

end Sys2Proof.Proofs

/-!
The registers that only commands and host writes change: ACC, VALID, LEN, FB, CMD and LASTOP (10_state.md R32, R34, R37, R46;
20_memory.md R73, R75).
-/
namespace Sys2Proof.Proofs

open Sys2Proof.Machine Sys2Proof.Laws

/-- ACC, VALID, LEN, FB, CMD and LASTOP are the same in two states. -/
structure SameRegisters (s u : State) : Prop where
  acc : u.acc = s.acc
  valid : u.valid = s.valid
  len : u.len = s.len
  fb : u.fb = s.fb
  cmd : u.cmd = s.cmd
  lastop : u.lastop = s.lastop

theorem sameRegisters_of_kept {s u : State} (h : Kept s u) : SameRegisters s u :=
  ⟨h.acc, h.valid, h.len, h.fb, h.cmd, h.lastop⟩

theorem SameRegisters.of_inputs {s u : State} {l : List Input} (h : SameRegisters { s with inputs := l } u) :
    SameRegisters s u :=
  ⟨h.acc, h.valid, h.len, h.fb, h.cmd, h.lastop⟩

/-- A host-only operation computes on the CRC registers, the frame buffer, RESULT and REV only. -/
theorem Computes.frame {s s' : State} {i : Instr} (h : Computes s i s') :
    s' = { s with
      acc := s'.acc, valid := s'.valid, len := s'.len, fb := s'.fb, result := s'.result, rev := s'.rev } := by
  cases h <;> rfl

theorem Computes.acc_writer {s s' : State} {i : Instr} (h : Computes s i s') :
    s'.acc = s.acc ∨ (0x01 ≤ i.opcode.toNat ∧ i.opcode.toNat ≤ 0x05) := by
  cases h with
  | control hi => exact .inl rfl
  | accumulate hi acc => exact .inr ⟨hi.1, by omega⟩
  | verify acc valid => exact .inr (by decide)
  | overflow => exact .inl rfl
  | append acc v hfit => exact .inr (by decide)
  | decode hi result rev hrev => exact .inl rfl

theorem Computes.valid_writer {s s' : State} {i : Instr} (h : Computes s i s') :
    s'.valid = s.valid ∨ i = .verify := by
  cases h with
  | verify acc valid => exact .inr rfl
  | _ => exact .inl rfl

theorem Computes.frame_writer {s s' : State} {i : Instr} (h : Computes s i s') :
    (s'.len = s.len ∧ s'.fb = s.fb) ∨ i = .crcAppend := by
  cases h with
  | append acc v hfit => exact .inr rfl
  | _ => exact .inl ⟨rfl, rfl⟩

/-- What a step does to these registers: nothing, what a host-only operation computes, only the acceptance of another command, or
one host write to FBLEN or FB. -/
inductive RegisterEffect (s u : State) : Prop
  | keeps (h : SameRegisters s u)
  | computes {w : Word} {i : Instr} {s' : State} (hw : acceptedWord s = some w) (hdec : decodeWord w = .ok i)
      (hcomp : ∃ l, Computes (accept w { s with inputs := l }) i s') (h : SameRegisters s' u)
  | accepts {w : Word} (hw : acceptedWord s = some w) (h : SameRegisters (accept w s) u)
  | writesLen {v : Word} (hidle : s.task = none) (hin : s.inputs.head? = some (.host (.write .word 0x00C v)))
      (h : SameRegisters { s with len := v.extractLsb' 0 10 } u)
  | writesFb {a : BitVec 12} {v : Word} (m : Memory) (hidle : s.task = none)
      (hin : s.inputs.head? = some (.host (.write .byte a v))) (hlo : 0x100 ≤ a.toNat) (hhi : a.toNat < 0x300)
      (h : SameRegisters { s with fb := m } u)

theorem registerEffect_of_command {s u : State} {w : Word} {rest : List Input}
    (hin : s.inputs = .host (.write .word 0x000 w) :: rest) (h : CommandEffect w { s with inputs := rest } u) :
    RegisterEffect s u := by
  cases h with
  | computes code hidle hdec hcomp =>
    exact .computes (acceptedWord_of_inputs hidle hin) hdec ⟨rest, hcomp⟩ ⟨rfl, rfl, rfl, rfl, rfl, rfl⟩
  | @starts op hidle hdec =>
    have hkept := startWake_cleared_kept op (newTask cfg op) (accept w { s with inputs := rest })
    exact .accepts (acceptedWord_of_inputs hidle hin) (sameRegisters_of_kept hkept).of_inputs
  | illegal hidle => exact .accepts (acceptedWord_of_inputs hidle hin) ⟨rfl, rfl, rfl, rfl, rfl, rfl⟩
  | aborts hbusy => exact .keeps ⟨rfl, rfl, rfl, rfl, rfl, rfl⟩
  | lost hbusy => exact .keeps ⟨rfl, rfl, rfl, rfl, rfl, rfl⟩

theorem registerEffect_of_step {s u : State} (h : StepEffect s u) (hreset : resetNext s = false) :
    RegisterEffect s u := by
  cases h with
  | cancels hdue => exact .keeps (sameRegisters_of_kept (cancel_kept cfg s))
  | advances l htask =>
    exact .keeps (sameRegisters_of_kept (advance_kept cfg { s with inputs := l })).of_inputs
  | accesses hin heff =>
    cases heff with
    | reads d n => exact .keeps ⟨rfl, rfl, rfl, rfl, rfl, rfl⟩
    | commands hcmd => exact registerEffect_of_command hin hcmd
    | writesLen v hidle hlegal => exact .writesLen hidle (by rw [hin]; rfl) ⟨rfl, rfl, rfl, rfl, rfl, rfl⟩
    | writesWm v hidle => exact .keeps ⟨rfl, rfl, rfl, rfl, rfl, rfl⟩
    | writesFb v hidle haddr hi =>
      exact .writesFb _ hidle (by rw [hin]; rfl) (by omega) (by omega) ⟨rfl, rfl, rfl, rfl, rfl, rfl⟩
    | loses hbusy => exact .keeps ⟨rfl, rfl, rfl, rfl, rfl, rfl⟩
    | ignores => exact .keeps ⟨rfl, rfl, rfl, rfl, rfl, rfl⟩
  | listens l d => exact .keeps ⟨rfl, rfl, rfl, rfl, rfl, rfl⟩
  | resets hin => rw [resetNext_of_inputs hin] at hreset; cases hreset

/-- Settles O47, by what a step can do to these registers. -/
theorem registerWriters : Obligations.RegisterWriters := by
  intro s u hstep hreset
  cases registerEffect_of_step (stepEffect_of_step hstep) hreset with
  | keeps h =>
    exact ⟨(absurd h.acc ·), (absurd h.valid ·), (absurd h.len ·), (absurd h.fb ·),
      fun hne => (hne.elim (absurd h.cmd ·) (absurd h.lastop ·))⟩
  | @computes w i s' hw hdec hcomp h =>
    obtain ⟨l, hcomp⟩ := hcomp
    have hop : acceptedOp s = some i.opcode.toNat := acceptedOp_of_decodeWord hw hdec
    refine ⟨fun hne => ?_, fun hne => ?_, fun hne => .inl ?_, fun hne => .inl ?_, fun _ => ⟨w, hw, ?_, ?_⟩⟩
    · exact ⟨_, hop, hcomp.acc_writer.resolve_left (h.acc ▸ hne)⟩
    · have hi : i = .verify := hcomp.valid_writer.resolve_left (h.valid ▸ hne)
      rw [hop, hi]
      rfl
    · have hi : i = .crcAppend := hcomp.frame_writer.resolve_left fun hsame => hne (h.len.trans hsame.1)
      rw [hop, hi]
      rfl
    · have hi : i = .crcAppend := hcomp.frame_writer.resolve_left fun hsame => hne (h.fb.trans hsame.2)
      rw [hop, hi]
      rfl
    · exact h.cmd.trans (congrArg State.cmd hcomp.frame)
    · exact h.lastop.trans (congrArg State.lastop hcomp.frame)
  | @accepts w hw h =>
    exact ⟨(absurd h.acc ·), (absurd h.valid ·), (absurd h.len ·), (absurd h.fb ·),
      fun _ => ⟨w, hw, h.cmd, h.lastop⟩⟩
  | @writesLen v hidle hin h =>
    exact ⟨(absurd h.acc ·), (absurd h.valid ·), fun _ => .inr ⟨v, hidle, hin, h.len⟩, (absurd h.fb ·),
      fun hne => (hne.elim (absurd h.cmd ·) (absurd h.lastop ·))⟩
  | @writesFb a v m hidle hin hlo hhi h =>
    exact ⟨(absurd h.acc ·), (absurd h.valid ·), (absurd h.len ·), fun _ => .inr ⟨a, v, hidle, hin, hlo, hhi⟩,
      fun hne => (hne.elim (absurd h.cmd ·) (absurd h.lastop ·))⟩

end Sys2Proof.Proofs

/-!
How an atomic step of the sequencer ends, as far as the watermark, BUSY and DONE see it, and from that the rule of the
watermark and the rules of the flags (10_state.md R33, R35, R46; 43_download.md R282 to R284).
-/
namespace Sys2Proof.Proofs

open Sys2Proof.Machine Sys2Proof.Laws

/-! ## The ways an atomic step ends -/

/-- An atomic step of the operation `op` that began with the watermark `wm` and the flag `done` waits at a suspension point,
finishes, or finishes with the selection of POLL_ARC. -/
inductive Leads (op : SerialOp) (wm : Stamp) (done : Bool) : State → Prop
  | waits {u : State} (hbusy : u.busy = true) (hdone : u.done = done) (hwm : (u.wmDate, u.wmTime) = wm) :
      Leads op wm done u
  | ends {s : State} (code : Code) (hwm : (s.wmDate, s.wmTime) = wm) : Leads op wm done (finish code s)
  | selects {s : State} (l : List ArcEntry) (hop : op = .pollArc) (hwm : (s.wmDate, s.wmTime) = wm) :
      Leads op wm done (finish .ok (selectNewest l { s with rlist := l }))

theorem enter_leads (op : SerialOp) (p : Point) (t : Task) (s : State) :
    Leads op (s.wmDate, s.wmTime) s.done (enter p t s) := by
  rcases enter_cases p t s with ⟨-, h⟩ | ⟨-, h⟩ <;> rw [h]
  · exact .waits rfl rfl rfl
  · exact .ends .cancelled rfl

theorem attemptDone_leads (c : Config) (t : Task) (r : Attempt) (s : State) :
    Leads t.op (s.wmDate, s.wmTime) s.done (attemptDone c t r s) := by
  unfold attemptDone
  split
  · exact .ends _ rfl
  · split
    · exact .selects _ ‹_› rfl
    · exact .ends (s := { s with rlist := _ }) _ rfl
  · split
    · split
      · exact enter_leads t.op (.pause .attempt) t { s with seq := .pause }
      · exact .ends _ rfl
    · exact .ends _ rfl

theorem commandDone_leads (c : Config) (t : Task) (r : CmdResult) (s : State) :
    Leads t.op (s.wmDate, s.wmTime) s.done (commandDone c t r s) := by
  unfold commandDone
  split
  · exact .ends _ rfl
  · exact .ends _ rfl
  · exact .ends _ rfl
  · exact enter_leads t.op (.rx .snapshot) _ { s with seq := .dataRead }
  · exact .ends _ rfl
  · exact enter_leads t.op _ _ s
  · exact attemptDone_leads c t _ s
  · exact enter_leads t.op _ _ s
  · exact attemptDone_leads c t _ s

theorem wakeDone_leads (c : Config) (t : Task) (r : CmdResult) (s : State) :
    Leads t.op (s.wmDate, s.wmTime) s.done (wakeDone c t r s) := by
  unfold wakeDone
  split
  · exact .ends _ rfl
  · exact enter_leads t.op (.tx .send) _ { s with seq := .send }
  · exact commandDone_leads c t _ s

theorem pageLoop_leads (c : Config) (i : Nat) (t : Task) (s : State) :
    Leads t.op (s.wmDate, s.wmTime) s.done (pageLoop c i t s) := by
  unfold pageLoop
  split
  · exact enter_leads t.op (.rx .page) t { s with seq := .pageLoop, pidx := BitVec.ofNat 16 i }
  · exact attemptDone_leads c t _ s

theorem afterTx_leads (c : Config) (t : Task) (p : TxPoint) (s : State) :
    Leads t.op (s.wmDate, s.wmTime) s.done (afterTx c t p s) := by
  cases p with
  | wake => exact enter_leads t.op _ t s
  | send => exact enter_leads t.op _ t s
  | watermark => exact enter_leads t.op (.rx .watermarkAck) t { s with seq := .headerSent }
  | escape => exact attemptDone_leads c t .noResult s
  | headerAck =>
    exact pageLoop_leads c 0 { t with offset := le16 t.rxbuf 2 }
      { s with seq := .headerReceived, pages := le16 t.rxbuf 0 }
  | pageAck =>
    exact pageLoop_leads c (s.pidx.toNat + 1)
      { t with records := (walkPage c t.rxbuf s.pidx.toNat t.offset.toNat (s.rev, t.records)).2 }
      { s with rev := (walkPage c t.rxbuf s.pidx.toNat t.offset.toNat (s.rev, t.records)).1 }

theorem afterRx_leads (c : Config) (t : Task) (p : RxPoint) (a : RxAnswer) (s : State) :
    Leads t.op (s.wmDate, s.wmTime) s.done (afterRx c t p a s) := by
  cases p with
  | wake =>
    simp only [afterRx]
    split
    · exact wakeDone_leads c t _ s
    · split
      · exact enter_leads t.op _ _ s
      · exact wakeDone_leads c t _ s
  | confirm =>
    cases a with
    | timeout => exact commandDone_leads c t .unreachable s
    | data bs =>
      simp only [afterRx]
      split
      · exact commandDone_leads c t _ s
      · split
        · exact enter_leads t.op _ _ s
        · exact commandDone_leads c t _ s
  | watermarkAck =>
    cases a with
    | timeout => exact attemptDone_leads c t .unreachable s
    | data bs =>
      simp only [afterRx]
      split
      · exact enter_leads t.op _ t s
      · exact attemptDone_leads c t _ s
  | header =>
    cases a with
    | timeout => exact attemptDone_leads c t .unreachable s
    | data bs => simp only [afterRx]; split <;> exact enter_leads t.op _ _ s
  | page =>
    cases a with
    | timeout => exact attemptDone_leads c t .unreachable s
    | data bs => simp only [afterRx]; split <;> exact enter_leads t.op _ _ s
  | snapshot =>
    cases a with
    | timeout => exact .ends .deviceUnreachable rfl
    | data bs =>
      simp only [afterRx]
      split
      · exact .ends (s := { s with result := _ }) .ok rfl
      · split
        · exact enter_leads t.op (.pause .snapshot) _ { s with seq := .pause }
        · exact .ends .deviceUnreachable rfl

theorem afterPause_leads (t : Task) (p : PausePoint) (s : State) :
    Leads t.op (s.wmDate, s.wmTime) s.done (afterPause t p s) := by
  cases p with
  | attempt => exact enter_leads t.op (.tx .wake) _ { clearProg s with seq := .wake }
  | snapshot => exact enter_leads t.op (.rx .snapshot) _ { s with seq := .dataRead }

/-- An Rx that ends consumes an answer or a draw and is seen on the channel; it changes nothing else. -/
theorem receive_state (n : Nat) (m : Millis) (s : State) :
    ∃ answers draws, (receive n m s).2 = { s with
      answers := answers, draws := draws,
      rxLog := s.rxLog ++ [{ n := n, timeout := m, answer := some (receive n m s).1 }] } := by
  unfold receive nextAnswer
  cases s.answers with
  | nil => exact ⟨_, _, rfl⟩
  | cons a rest => exact ⟨_, _, rfl⟩

theorem advance_of_tx {c : Config} {s : State} {t : Task} {p : TxPoint} (h : s.task = some t) (hp : t.point = .tx p) :
    advance c s = afterTx c t p (transmit (txBytesOf c s t p) s) := by
  simp [advance, h, hp]

theorem advance_of_pause {c : Config} {s : State} {t : Task} {p : PausePoint} (h : s.task = some t)
    (hp : t.point = .pause p) : advance c s = afterPause t p s := by
  simp [advance, h, hp]

theorem advance_leads {c : Config} {s : State} {t : Task} (htask : s.task = some t) :
    Leads t.op (s.wmDate, s.wmTime) s.done (advance c s) := by
  match hp : t.point with
  | .tx p =>
    rw [advance_of_tx htask hp]
    exact afterTx_leads c t p (transmit (txBytesOf c s t p) s)
  | .rx p =>
    rw [advance_of_rx htask hp]
    generalize rxRequest c t p = q
    obtain ⟨answers, draws, hstate⟩ := receive_state q.1 q.2 s
    have hleads := afterRx_leads c (keepAnswer q.1 q.2 (receive q.1 q.2 s).1 t) p (receive q.1 q.2 s).1
      (receive q.1 q.2 s).2
    rwa [congrArg State.wmDate hstate, congrArg State.wmTime hstate, congrArg State.done hstate] at hleads
  | .pause p =>
    rw [advance_of_pause htask hp]
    exact afterPause_leads t p s

theorem Leads.flags {op : SerialOp} {wm : Stamp} {done : Bool} {u : State} (h : Leads op wm done u) :
    (u.busy = true ∧ u.done = done) ∨ (u.busy = false ∧ u.done = true) := by
  cases h with
  | waits hbusy hdone hwm => exact .inl ⟨hbusy, hdone⟩
  | ends code hwm => exact .inr ⟨rfl, rfl⟩
  | selects l hop hwm => exact .inr ⟨rfl, rfl⟩

theorem busy_of_cancelDue {s : State} (h : cancelDue s = true) : s.busy = true := by
  unfold cancelDue at h
  split at h
  · cases h
  · exact busy_of_task ‹_›

/-- A cancellation that is due finishes with CANCELLED; only the channel's record may have grown. -/
theorem cancel_eq_finish (c : Config) {s : State} (h : cancelDue s = true) :
    ∃ rxLog, cancel c s = finish .cancelled { s with rxLog := rxLog } := by
  obtain ⟨t, htask⟩ := busy_eq_true.mp (busy_of_cancelDue h)
  match hp : t.point with
  | .tx p => simp [cancelDue, htask, hp] at h
  | .rx p =>
    exact ⟨s.rxLog ++ [{ n := (rxRequest c t p).1, timeout := (rxRequest c t p).2, answer := none }],
      by simp [cancel, htask, hp]⟩
  | .pause p => exact ⟨s.rxLog, by simp [cancel, htask, hp, finish, State.busy]⟩

/-! ## The selection (43_download.md R282) -/

theorem stampLt_iff_newer (x y : Stamp) : stampLt x y = true ↔ Newer y x := by
  simp only [stampLt, Newer, BitVec.ult, Bool.or_eq_true, Bool.and_eq_true, decide_eq_true_eq, beq_iff_eq]
  rw [eq_comm]

theorem Newer.trans {x y z : Stamp} (hxy : Newer x y) (hyz : Newer y z) : Newer x z := by
  rcases hxy with hxy | ⟨hxy, hxy'⟩ <;> rcases hyz with hyz | ⟨hyz, hyz'⟩
  · exact .inl (by omega)
  · exact .inl (hyz ▸ hxy)
  · exact .inl (hxy ▸ hyz)
  · exact .inr ⟨hxy.trans hyz, by omega⟩

/-- What the search finds is the best so far or a later element, and in any case newer than the watermark. -/
theorem newestFrom_some {wm : Stamp} {l : List ArcEntry} {j : Nat} {best : Option (Nat × ArcEntry)} {x : Nat × ArcEntry}
    (hbest : ∀ b, best = some b → Newer (stampOf b.2.record) wm) (h : newestFrom wm j best l = some x) :
    Newer (stampOf x.2.record) wm ∧ (best = some x ∨ ∃ i, x.1 = j + i ∧ l[i]? = some x.2) := by
  induction l generalizing j best with
  | nil => exact ⟨hbest x h, .inl h⟩
  | cons e es ih =>
    have later : ∀ i, x.1 = j + 1 + i → es[i]? = some x.2 → ∃ i, x.1 = j + i ∧ (e :: es)[i]? = some x.2 :=
      fun i hi he => ⟨i + 1, by omega, by rwa [List.getElem?_cons_succ]⟩
    unfold newestFrom at h
    by_cases hlt : stampLt (barOf wm best) (stampOf e.record) = true
    · rw [if_pos hlt] at h
      have hnew : Newer (stampOf e.record) wm := by
        have hbar : Newer (stampOf e.record) (barOf wm best) := (stampLt_iff_newer _ _).mp hlt
        cases best with
        | none => exact hbar
        | some b => exact Newer.trans hbar (hbest b rfl)
      obtain ⟨hx, heq | ⟨i, hi, he⟩⟩ := ih (fun b hb => by cases hb; exact hnew) h
      · cases heq
        exact ⟨hx, .inr ⟨0, rfl, rfl⟩⟩
      · exact ⟨hx, .inr (later i hi he)⟩
    · rw [if_neg hlt] at h
      obtain ⟨hx, heq | ⟨i, hi, he⟩⟩ := ih hbest h
      · exact ⟨hx, .inl heq⟩
      · exact ⟨hx, .inr (later i hi he)⟩

/-- The selected position holds the selected record, which is newer than the watermark. -/
theorem newest_some {wm : Stamp} {l : List ArcEntry} {j : Nat} {e : ArcEntry} (h : newest wm l = some (j, e)) :
    l[j]? = some e ∧ Newer (stampOf e.record) wm := by
  obtain ⟨hnew, hnone | ⟨i, hi, he⟩⟩ := newestFrom_some (fun b hb => by cases hb) h
  · cases hnone
  · obtain rfl : j = i := hi.trans (Nat.zero_add i)
    exact ⟨he, hnew⟩

/-- The selection writes nothing, or the newest record and its position (43_download.md R282 to R284). -/
theorem selectNewest_cases (l : List ArcEntry) (s : State) :
    selectNewest l s = s ∨
    ∃ j e, l[j]? = some e ∧ Newer (stampOf e.record) (s.wmDate, s.wmTime) ∧
      selectNewest l s = { s with
        selIndex := BitVec.ofNat 19 j, selValid := true, result := .arc e,
        wmDate := dateStampOf e.record, wmTime := timeStampOf e.record } := by
  unfold selectNewest
  split
  · exact .inl rfl
  · rename_i j e hnewest
    obtain ⟨he, hnew⟩ := newest_some hnewest
    exact .inr ⟨j, e, he, hnew, rfl⟩

/-! ## The watermark (10_state.md R35) -/

theorem enter_wm (p : Point) (t : Task) (s : State) :
    ((enter p t s).wmDate, (enter p t s).wmTime) = (s.wmDate, s.wmTime) := by
  rcases enter_cases p t s with ⟨-, h⟩ | ⟨-, h⟩ <;> simp [h]

theorem startWake_wm (t : Task) (s : State) :
    ((startWake t s).wmDate, (startWake t s).wmTime) = (s.wmDate, s.wmTime) :=
  enter_wm (.tx .wake) { t with kw := 1 } { s with seq := .wake }

theorem CommandEffect.wm {w : Word} {s u : State} (h : CommandEffect w s u) :
    (u.wmDate, u.wmTime) = (s.wmDate, s.wmTime) := by
  cases h with
  | computes code hidle hdec hcomp =>
    have hframe := congrArg (fun u : State => (u.wmDate, u.wmTime)) hcomp.frame
    exact hframe
  | @starts op hidle hdec => rw [startWake_wm, cleared_wmDate, cleared_wmTime]; rfl
  | illegal hidle => rfl
  | aborts hbusy => rfl
  | lost hbusy => rfl

/-- A host access moves the watermark only by writing WM on an idle block. -/
theorem HostEffect.wm {a : Access} {s u : State} (h : HostEffect s a u) :
    (u.wmDate, u.wmTime) = (s.wmDate, s.wmTime) ∨
    ∃ v, s.task = none ∧ a = .write .word 0x010 v ∧
      (u.wmDate, u.wmTime) = (v.extractLsb' 16 16, v.extractLsb' 0 16) := by
  cases h with
  | commands hcmd => exact .inl hcmd.wm
  | writesWm v hidle => exact .inr ⟨v, hidle, rfl, rfl⟩
  | _ => exact .inl rfl

/-- An atomic step moves the watermark only where POLL_ARC selects a record, and then to its pair. -/
theorem Leads.wm {op : SerialOp} {wm : Stamp} {done : Bool} {u : State} (h : Leads op wm done u) :
    (u.wmDate, u.wmTime) = wm ∨
    (op = .pollArc ∧ u.task = none ∧ u.done = true ∧ u.code = .ok ∧ u.selValid = true ∧
      ∃ e ∈ u.rlist, u.result = .arc e ∧ (u.wmDate, u.wmTime) = stampOf e.record ∧ Newer (u.wmDate, u.wmTime) wm) := by
  cases h with
  | waits hbusy hdone hwm => exact .inl hwm
  | ends code hwm => exact .inl hwm
  | @selects s l hop hwm =>
    rcases selectNewest_cases l { s with rlist := l } with h | ⟨j, e, he, hnew, h⟩ <;> rw [h]
    · exact .inl hwm
    · exact .inr ⟨hop, rfl, rfl, rfl, rfl, e, List.mem_of_getElem? he, rfl, rfl, hwm ▸ hnew⟩

/-- Settles O44, by what a host access and the end of an atomic step can do to the watermark. -/
theorem watermarkOnlyAdvances : Obligations.WatermarkOnlyAdvances := by
  intro s u hstep hreset hmoved
  cases stepEffect_of_step hstep with
  | cancels hdue =>
    obtain ⟨rxLog, h⟩ := cancel_eq_finish cfg hdue
    exact absurd (by rw [h]; rfl) hmoved
  | @advances t l htask =>
    rcases (advance_leads (c := cfg) (s := { s with inputs := l }) htask).wm with
      hwm | ⟨hop, hidle, hdone, hcode, hsel, e, hmem, hresult, hstamp, hnew⟩
    · exact absurd hwm hmoved
    · exact .inr ⟨t, e, htask, hop, hidle, hdone, hcode, hsel, hmem, hresult, hstamp, hnew⟩
  | accesses hin heff =>
    rcases heff.wm with hwm | ⟨v, hidle, rfl, hwm⟩
    · exact absurd hwm hmoved
    · exact .inl ⟨v, hidle, by rw [hin]; rfl, hwm⟩
  | listens l d => exact absurd rfl hmoved
  | resets hin => rw [resetNext_of_inputs hin] at hreset; cases hreset

end Sys2Proof.Proofs

/-! The flags BUSY, DONE and OVR: what sets and what clears each (10_state.md R33, R46). -/
namespace Sys2Proof.Proofs

open Sys2Proof.Machine Sys2Proof.Laws

/-- What a step does to BUSY, DONE and OVR: nothing, the end of the running operation, the acceptance of a command, which finishes
at once or starts a serial operation, or a host write lost to a running operation. -/
inductive FlagEffect (s u : State) : Prop
  | keeps (hbusy : u.busy = s.busy) (hdone : u.done = s.done) (hovr : u.ovr = s.ovr)
  | finishes (hbusy : s.busy = true) (hidle' : u.busy = false) (hdone' : u.done = true) (hovr : u.ovr = s.ovr)
  | completes {w : Word} (hw : acceptedWord s = some w) (hidle : s.busy = false) (hidle' : u.busy = false)
      (hdone' : u.done = true) (hovr' : u.ovr = false)
  | starts {w : Word} {op : SerialOp} (hw : acceptedWord s = some w) (hdec : decodeWord w = .ok op.instr)
      (hidle : s.busy = false) (hdone' : u.done = false) (hovr' : u.ovr = false)
  | loses (hbusy : s.busy = true) (hin : ∃ w a v, s.inputs.head? = some (.host (.write w a v)))
      (hbusy' : u.busy = s.busy) (hdone : u.done = s.done) (hovr' : u.ovr = true)

/-- With no abort requested a serial operation starts at its first Tx point, and DONE stays as acceptance left it. -/
theorem startWake_done {t : Task} {s : State} (h : s.abortReq = false) : (startWake t s).done = s.done := by
  have hwait := enter_of_no_abort (p := .tx .wake) (t := { t with kw := 1 }) (s := { s with seq := .wake }) h
  rw [startWake, hwait]

theorem flagEffect_of_command {s u : State} {w : Word} {rest : List Input} (hinv : Inv s)
    (hin : s.inputs = .host (.write .word 0x000 w) :: rest) (h : CommandEffect w { s with inputs := rest } u) :
    FlagEffect s u := by
  have hwrite : ∃ w a v, s.inputs.head? = some (.host (.write w a v)) := ⟨_, _, _, by rw [hin]; rfl⟩
  cases h with
  | computes code hidle hdec hcomp =>
    exact .completes (acceptedWord_of_inputs hidle hin) (busy_of_idle hidle) rfl rfl (congrArg State.ovr hcomp.frame)
  | @starts op hidle hdec =>
    refine .starts (acceptedWord_of_inputs hidle hin) hdec (busy_of_idle hidle) ?_ ?_
    · rw [startWake_done, cleared_done, accept_done]
      rw [cleared_abortReq, accept_abortReq]
      exact (hinv.idle hidle).1
    · exact (startWake_cleared_kept op _ _).ovr
  | illegal hidle => exact .completes (acceptedWord_of_inputs hidle hin) (busy_of_idle hidle) rfl rfl rfl
  | aborts hbusy => exact .keeps rfl rfl rfl
  | lost hbusy => exact .loses ((busy_iff s).mpr hbusy) hwrite rfl rfl rfl

theorem flagEffect_of_step {s u : State} (hinv : Inv s) (h : StepEffect s u) (hreset : resetNext s = false) :
    FlagEffect s u := by
  cases h with
  | cancels hdue =>
    obtain ⟨rxLog, h⟩ := cancel_eq_finish cfg hdue
    rw [h]
    exact .finishes (busy_of_cancelDue hdue) rfl rfl rfl
  | advances l htask =>
    have hovr : (advance cfg { s with inputs := l }).ovr = s.ovr := (advance_kept cfg _).ovr
    have hbusy : s.busy = true := busy_of_task htask
    rcases (advance_leads (c := cfg) (s := { s with inputs := l }) htask).flags with ⟨hb, hd⟩ | ⟨hb, hd⟩
    · exact .keeps (hb.trans hbusy.symm) hd hovr
    · exact .finishes hbusy hb hd hovr
  | accesses hin heff =>
    cases heff with
    | commands hcmd => exact flagEffect_of_command hinv hin hcmd
    | loses hbusy => exact .loses ((busy_iff s).mpr hbusy) ⟨_, _, _, by rw [hin]; rfl⟩ rfl rfl rfl
    | _ => exact .keeps rfl rfl rfl
  | listens l d => exact .keeps rfl rfl rfl
  | resets hin => rw [resetNext_of_inputs hin] at hreset; cases hreset

theorem serialOp_opcode_range (op : SerialOp) : 0x20 ≤ op.instr.opcode.toNat ∧ op.instr.opcode.toNat ≤ 0x25 := by
  cases op <;> simp [SerialOp.instr, Instr.opcode]

/-- Settles O48, by what a step of a block in its invariant can do to the three flags. -/
theorem flagRules : Obligations.FlagRules := by
  intro s u hinv hstep hreset
  cases flagEffect_of_step hinv (stepEffect_of_step hstep) hreset with
  | keeps hbusy hdone hovr => simp_all
  | finishes hbusy hidle' hdone' hovr => simp_all
  | completes hw hidle hidle' hdone' hovr' => simp_all
  | @starts w op hw hdec hidle hdone' hovr' =>
    have hop : acceptedOp s = some op.instr.opcode.toNat := acceptedOp_of_decodeWord hw hdec
    refine ⟨fun _ _ => ⟨hdone', _, hop, serialOp_opcode_range op⟩, ?_, ?_, fun _ _ => ⟨w, hw⟩, ?_, fun _ _ => ⟨w, hw⟩⟩
    all_goals simp [hidle, hdone', hovr']
  | loses hbusy hin hbusy' hdone hovr' => simp_all

end Sys2Proof.Proofs

/-!
The invariant of the block is inductive (10_state.md R36 to R45, 43_download.md R270 to R277). A serial operation keeps it because
each procedure that stops at a suspension point or finishes does so in a state of the invariant; `Running` is what holds of the
operation between its points, and `enter_keeps_inv` adds what its next point asks for.
-/
namespace Sys2Proof.Proofs

open Sys2Proof.Machine Sys2Proof.Laws

/-! ## The slots of a page keep one revision (43_download.md R276, R277) -/

/-- Every record was decoded under the flag's revision (10_state.md R36, R44). -/
def OneRevision (x : Rev × List ArcEntry) : Prop := ∀ e ∈ x.2, x.1 = flagOf e.rev

theorem flagOf_decodeArc (c : Config) {rev : Rev} (f : List Byte) (q : Nat) (h : rev ≠ .unknown) :
    flagOf (decodeArc c rev.layout f q).rev = rev := by
  cases rev with
  | unknown => exact absurd rfl h
  | a => rfl
  | b => rfl

theorem flagOf_ne_unknown (r : ArcRev) : flagOf r ≠ .unknown := by cases r <;> simp [flagOf]

/-- A probe leaves the flag of the records there are: an unknown flag has none. -/
theorem OneRevision.probe {x : Rev × List ArcEntry} (h : OneRevision x) (d : Byte) :
    OneRevision (Machine.probe x.1 d, x.2) := by
  intro e he
  have hrev : x.1 = flagOf e.rev := h e he
  have hknown : x.1 ≠ .unknown := hrev ▸ flagOf_ne_unknown e.rev
  exact (probe_of_known d hknown).trans hrev

theorem slotRecord_oneRevision (c : Config) (f : List Byte) (q : Nat) {x : Rev × List ArcEntry} (h : OneRevision x) :
    OneRevision (slotRecord c f q x) := by
  intro e he
  rw [slotRecord_rev]
  rcases slotRecord_records c f q x with hsame | hmore
  · exact h.probe _ e (hsame ▸ he)
  · rw [hmore, List.mem_append, List.mem_singleton] at he
    rcases he with he | rfl
    · exact h.probe _ e he
    · exact (flagOf_decodeArc c f q (probe_ne_unknown _ _)).symm

theorem slotRecord_length (c : Config) (f : List Byte) (q : Nat) (x : Rev × List ArcEntry) :
    (slotRecord c f q x).2.length ≤ x.2.length + 1 := by
  rcases slotRecord_records c f q x with h | h <;> simp [h]

theorem walkSlots_keeps (c : Config) (f : List Byte) (s n : Nat) {x : Rev × List ArcEntry} (h : OneRevision x) :
    OneRevision (walkSlots c f s n x) ∧ (walkSlots c f s n x).2.length ≤ x.2.length + n := by
  induction n generalizing s x with
  | zero => exact ⟨h, Nat.le_refl _⟩
  | succ n ih =>
    rw [walkSlots_succ]
    obtain ⟨hrev, hlen⟩ := ih (s + 1) (slotRecord_oneRevision c f (1 + c.arcSize * s) h)
    have hslot := slotRecord_length c f (1 + c.arcSize * s) x
    exact ⟨hrev, by omega⟩

/-- A page keeps one revision and adds at most one record a slot. -/
theorem walkPage_keeps (c : Config) (f : List Byte) (i offset : Nat) {x : Rev × List ArcEntry} (h : OneRevision x) :
    OneRevision (walkPage c f i offset x) ∧ (walkPage c f i offset x).2.length ≤ x.2.length + c.slots := by
  obtain ⟨hrev, hlen⟩ := walkSlots_keeps c f (if i = 0 then offset else 0) (c.slots - if i = 0 then offset else 0) h
  exact ⟨hrev, hlen.trans (by omega)⟩

/-! ## Completion and suspension -/

/-- What holds of a running operation whatever its point: what it leaves of the invariant at its end, and the parts of `TaskInv`
that name no point. -/
structure Running (s : State) (t : Task) : Prop where
  fb : FbInv s
  results : ResultInv s
  done : s.done = false
  lastop : s.lastop = t.op.opcode
  result : t.op = .pollRt ∨ t.op = .pollArc → s.result = .none
  rlist : t.op.downloads = true → s.rlist = [] ∧ s.selValid = false
  received : t.received <:+ s.rxLog
  kw : 1 ≤ t.kw ∧ t.kw ≤ cfg.retries
  ks : 1 ≤ t.ks ∧ t.ks ≤ cfg.retries
  kr : 1 ≤ t.kr ∧ t.kr ≤ cfg.retries
  kd : 1 ≤ t.kd ∧ t.kd ≤ cfg.retries
  revs : OneRevision (s.rev, t.records)

/-- `finish` of a serial operation leaves a resting phase and no abort request, so only the results and the frame buffer matter. -/
theorem finish_busy_keeps_inv {s : State} (code : Code) (hbusy : s.busy = true) (hfb : FbInv s) (hres : ResultInv s) :
    Inv (finish code s) := by
  refine ⟨hfb, hres, fun _ => ⟨rfl, .inr ?_⟩, fun t ht => by cases ht⟩
  rw [finish_seq_busy code hbusy]
  by_cases hc : code = .ok <;> simp [hc]

/-- `finish` of a host-only operation leaves SEQ at rest. -/
theorem finish_idle_keeps_inv {s : State} (code : Code) (hidle : s.task = none) (hfb : FbInv s) (hres : ResultInv s)
    (hseq : s.seq = .idle ∨ s.seq = .done ∨ s.seq = .aborted) : Inv (finish code s) := by
  refine ⟨hfb, hres, fun _ => ⟨rfl, ?_⟩, fun t ht => by cases ht⟩
  rwa [finish_seq_idle code (busy_of_idle hidle)]

/-- Entering a point the operation has, under its phase, with what the point asks of counters, records and receive buffer. -/
theorem enter_keeps_inv {p : Point} {t : Task} {s : State} (h : Running s t) (hpoint : pointOfOp t.op p = true)
    (hphase : phaseAtPoint s.seq p = true)
    (hpause : (p = .pause .attempt → t.kd < cfg.retries) ∧ (p = .pause .snapshot → t.kr < cfg.retries))
    (hrec : RecordsInv s { t with point := p }) (hack : AckInv { t with point := p }) : Inv (enter p t s) := by
  rcases enter_cases p t s with ⟨habort, heq⟩ | ⟨habort, heq⟩ <;> rw [heq]
  · refine ⟨h.fb, h.results, (fun hidle => by cases hidle), fun t' ht' => ?_⟩
    cases ht'
    exact ⟨hpoint, hphase, h.done, h.lastop, h.result, h.rlist, h.received, ⟨h.kw, h.ks, h.kr, h.kd, hpause⟩, hrec, hack⟩
  · exact finish_busy_keeps_inv _ rfl h.fb h.results

/-! ## The procedures, from their innermost ends outwards -/

theorem startWake_keeps_inv {t : Task} {s : State} (h : Running s t) (hnil : t.records = []) : Inv (startWake t s) := by
  have hrun : Running { s with seq := .wake } { t with kw := 1 } := { h with kw := by simp }
  exact enter_keeps_inv hrun rfl rfl ⟨nofun, nofun⟩ ⟨hrun.revs, hnil⟩ trivial

theorem startSend_keeps_inv {t : Task} {s : State} (h : Running s t) (hop : t.op ≠ .wake) (hnil : t.records = []) :
    Inv (startSend t s) := by
  have hrun : Running { s with seq := .send } { t with ks := 1 } := { h with ks := by simp }
  exact enter_keeps_inv hrun (bne_iff_ne.mpr hop) rfl ⟨nofun, nofun⟩ ⟨hrun.revs, hnil⟩ trivial

theorem startAttempt_keeps_inv {t : Task} {s : State} (h : Running s t) : Inv (startAttempt t s) := by
  have hrun : Running (clearProg s) { t with records := [] } := { h with revs := nofun }
  exact startWake_keeps_inv hrun rfl

theorem startSnapshotRead_keeps_inv {t : Task} {s : State} (h : Running s t) (hop : t.op = .pollRt)
    (hnil : t.records = []) : Inv (startSnapshotRead t s) := by
  have hrun : Running { s with seq := .dataRead } t := { h with }
  exact enter_keeps_inv hrun (by simp [pointOfOp, hop]) rfl ⟨nofun, nofun⟩ ⟨hrun.revs, hnil⟩ trivial

/-- RLIST takes the collected list while SEL is 0. -/
theorem resultInv_of_list {s : State} {l : List ArcEntry} (hres : ResultInv s) (hsel : s.selValid = false)
    (hlen : l.length ≤ cfg.recCap) (hrevs : OneRevision (s.rev, l)) : ResultInv { s with rlist := l } := by
  obtain ⟨-, -, hindex⟩ := hres
  refine ⟨hlen, hrevs, ?_⟩
  simpa [hsel] using hindex

/-- The selected position lies in the list, so its 19-bit image is the position itself (10_state.md R39). -/
theorem selectNewest_resultInv {s : State} (hres : ResultInv s) : ResultInv (selectNewest s.rlist s) := by
  rcases selectNewest_cases s.rlist s with h | ⟨j, e, he, -, h⟩ <;> rw [h]
  · exact hres
  · obtain ⟨hlen, hrevs, -⟩ := hres
    obtain ⟨hj, -⟩ := List.getElem?_eq_some_iff.mp he
    have hcap : s.rlist.length ≤ 327675 := hlen
    have hfit : (BitVec.ofNat 19 j).toNat = j := by
      rw [BitVec.toNat_ofNat]
      exact Nat.mod_eq_of_lt (by omega)
    refine ⟨hlen, hrevs, ?_⟩
    change (BitVec.ofNat 19 j).toNat < s.rlist.length
    rwa [hfit]

theorem selectNewest_task (l : List ArcEntry) (s : State) : (selectNewest l s).task = s.task := by
  rcases selectNewest_cases l s with h | ⟨j, e, -, -, h⟩ <;> rw [h]

theorem attemptDone_unreachable_keeps_inv {t : Task} {s : State} (h : Running s t) (hbusy : s.busy = true) :
    Inv (attemptDone cfg t .unreachable s) :=
  finish_busy_keeps_inv _ hbusy h.fb h.results

theorem attemptDone_list_keeps_inv {t : Task} {s : State} {l : List ArcEntry} (h : Running s t) (hbusy : s.busy = true)
    (hop : t.op.downloads = true) (hlen : l.length ≤ cfg.recCap) (hrevs : OneRevision (s.rev, l)) :
    Inv (attemptDone cfg t (.list l) s) := by
  have hres : ResultInv { s with rlist := l } := resultInv_of_list h.results (h.rlist hop).2 hlen hrevs
  simp only [attemptDone]
  split
  · have hkept := selectNewest_kept l { s with rlist := l }
    have hfb : FbInv (selectNewest l { s with rlist := l }) := by
      rw [FbInv, State.lenNat, hkept.fb, hkept.len]
      exact h.fb
    have hb : (selectNewest l { s with rlist := l }).busy = true := by
      rw [State.busy, selectNewest_task]
      exact hbusy
    exact finish_busy_keeps_inv _ hb hfb (selectNewest_resultInv (s := { s with rlist := l }) hres)
  · exact finish_busy_keeps_inv (s := { s with rlist := l }) _ hbusy h.fb hres

theorem attemptDone_noResult_keeps_inv {t : Task} {s : State} (h : Running s t) (hbusy : s.busy = true) :
    Inv (attemptDone cfg t .noResult s) := by
  simp only [attemptDone]
  split
  · rename_i hop
    split
    · rename_i hkd
      have hrun : Running { s with seq := .pause } t := { h with }
      exact enter_keeps_inv hrun (by simp [pointOfOp, hop]) rfl ⟨fun _ => hkd, nofun⟩ ⟨hrun.revs, trivial⟩ trivial
    · exact finish_busy_keeps_inv _ hbusy h.fb h.results
  · exact finish_busy_keeps_inv _ hbusy h.fb h.results

/-- `Command` returns while SEQ is SEND, unless it has failed to reach the device. -/
theorem commandDone_keeps_inv {t : Task} {r : CmdResult} {s : State} (h : Running s t) (hbusy : s.busy = true)
    (hnil : t.records = []) (hseq : r = .ok → s.seq = .send) : Inv (commandDone cfg t r s) := by
  have hfinish (code : Code) : Inv (finish code s) := finish_busy_keeps_inv code hbusy h.fb h.results
  have hwatermark (hop : t.op.downloads = true) (hr : r = .ok) (v : Half) :
      Inv (enter (.tx .watermark) { t with pcrc := v } s) := by
    have hrun : Running s { t with pcrc := v } := { h with }
    exact enter_keeps_inv hrun hop (by simp [phaseAtPoint, hseq hr]) ⟨nofun, nofun⟩ ⟨h.revs, hnil⟩ trivial
  unfold commandDone
  split
  · exact hfinish _
  · exact hfinish _
  · exact hfinish _
  · rename_i hop
    have hrun : Running s { t with kr := 1 } := { h with kr := by simp }
    exact startSnapshotRead_keeps_inv hrun hop hnil
  · exact hfinish _
  · rename_i hop
    exact hwatermark (by rw [hop]; rfl) rfl _
  · exact hfinish _
  · rename_i hop
    exact hwatermark (by rw [hop]; rfl) rfl _
  · exact hfinish _

theorem wakeDone_keeps_inv {t : Task} {r : CmdResult} {s : State} (h : Running s t) (hbusy : s.busy = true)
    (hnil : t.records = []) : Inv (wakeDone cfg t r s) := by
  unfold wakeDone
  split
  · exact finish_busy_keeps_inv _ hbusy h.fb h.results
  · exact startSend_keeps_inv h ‹_› hnil
  · exact commandDone_keeps_inv h hbusy hnil nofun

/-- The page loop at index `i`: at most five records a page read so far, so at most REC_CAP when the last page is done. -/
theorem pageLoop_keeps_inv {i : Nat} {t : Task} {s : State} (h : Running s t) (hbusy : s.busy = true)
    (hop : t.op.downloads = true) (hi : i ≤ s.pages.toNat) (hlen : t.records.length ≤ 5 * i) :
    Inv (pageLoop cfg i t s) := by
  have hpages : s.pages.toNat < 65536 := s.pages.isLt
  unfold pageLoop
  split
  · rename_i hlt
    have hrun : Running { s with seq := .pageLoop, pidx := BitVec.ofNat 16 i } t := { h with }
    have hpidx : (BitVec.ofNat 16 i).toNat = i := by
      rw [BitVec.toNat_ofNat]
      exact Nat.mod_eq_of_lt (by omega)
    refine enter_keeps_inv hrun hop rfl ⟨nofun, nofun⟩ ⟨hrun.revs, ?_⟩ trivial
    change (BitVec.ofNat 16 i).toNat < s.pages.toNat ∧ t.records.length ≤ 5 * (BitVec.ofNat 16 i).toNat
    rw [hpidx]
    exact ⟨hlt, hlen⟩
  · exact attemptDone_list_keeps_inv h hbusy hop (by rw [cfg_recCap]; omega) h.revs

/-! ## After a suspension point -/

/-- The operation keeps the answer and the channel sees it, so its history stays the channel's end (10_state.md R45). -/
theorem Running.receive {s : State} {t : Task} (h : Running s t) (n : Nat) (m : Millis) :
    Running (receive n m s).2 (keepAnswer n m (receive n m s).1 t) := by
  obtain ⟨before, hbefore⟩ := h.received
  obtain ⟨answers, draws, hstate⟩ := receive_state n m s
  rw [hstate]
  exact { h with received := ⟨before, by simp [← hbefore]⟩ }

/-- The flag that a page's walk has fixed: RLIST is still empty, so no record in it has another revision. -/
theorem Running.walk {s : State} {t : Task} {x : Rev × List ArcEntry} (h : Running s t) (hop : t.op.downloads = true)
    (hrevs : OneRevision x) : Running { s with rev := x.1 } { t with records := x.2 } := by
  obtain ⟨hcap, -, hsel⟩ := h.results
  have hnil : s.rlist = [] := (h.rlist hop).1
  exact { h with revs := hrevs, results := ⟨hcap, by simp [hnil], hsel⟩ }

/-- What a running operation's point adds to `Running`. -/
structure AtPoint (s : State) (t : Task) (p : Point) : Prop where
  running : Running s t
  point : pointOfOp t.op p = true
  phase : phaseAtPoint s.seq p = true
  pause : (p = .pause .attempt → t.kd < cfg.retries) ∧ (p = .pause .snapshot → t.kr < cfg.retries)
  records : RecordsInv s { t with point := p }
  ack : AckInv { t with point := p }

theorem atPoint_of_inv {s : State} {t : Task} {p : Point} (h : Inv s) (htask : s.task = some t) (hp : t.point = p) :
    AtPoint s t p := by
  subst hp
  obtain ⟨hpoint, hphase, hdone, hlastop, hresult, hrlist, hreceived, ⟨hkw, hks, hkr, hkd, hpause⟩, hrec, hack⟩ :=
    h.task t htask
  exact ⟨⟨h.fb, h.results, hdone, hlastop, hresult, hrlist, hreceived, hkw, hks, hkr, hkd, hrec.1⟩,
    hpoint, hphase, hpause, hrec, hack⟩

theorem afterTx_keeps_inv {p : TxPoint} {t : Task} {s : State} (h : AtPoint s t (.tx p)) (hbusy : s.busy = true) :
    Inv (afterTx cfg t p s) := by
  have hrun := h.running
  cases p with
  | wake => exact enter_keeps_inv hrun rfl h.phase ⟨nofun, nofun⟩ h.records trivial
  | send => exact enter_keeps_inv hrun h.point h.phase ⟨nofun, nofun⟩ h.records trivial
  | watermark =>
    have hrun' : Running { s with seq := .headerSent } t := { hrun with }
    exact enter_keeps_inv hrun' h.point rfl ⟨nofun, nofun⟩ h.records trivial
  | escape => exact attemptDone_noResult_keeps_inv hrun hbusy
  | headerAck =>
    have hnil : t.records = [] := h.records.2
    have hrun' : Running { s with seq := .headerReceived, pages := le16 t.rxbuf 0 }
        { t with offset := le16 t.rxbuf 2 } := { hrun with }
    exact pageLoop_keeps_inv hrun' hbusy h.point (Nat.zero_le _) (by simp [hnil])
  | pageAck =>
    obtain ⟨-, hlt, hlen⟩ := h.records
    have hcount : t.records.length ≤ 5 * s.pidx.toNat := hlen
    obtain ⟨hwalk, hmore⟩ := walkPage_keeps cfg t.rxbuf s.pidx.toNat t.offset.toNat hrun.revs
    rw [cfg_slots] at hmore
    exact pageLoop_keeps_inv (hrun.walk h.point hwalk) hbusy h.point hlt (by dsimp only at hmore ⊢; omega)

theorem AtPoint.receive {s : State} {t : Task} {p : RxPoint} (h : AtPoint s t (.rx p)) (n : Nat) (m : Millis) :
    AtPoint (receive n m s).2 (keepAnswer n m (receive n m s).1 t) (.rx p) := by
  have hrun := h.running.receive n m
  obtain ⟨answers, draws, hstate⟩ := receive_state n m s
  rw [hstate] at hrun ⊢
  exact ⟨hrun, h.point, h.phase, ⟨nofun, nofun⟩, h.records, trivial⟩

/-- A received frame is acknowledged at the point `ack` when it verifies, and escaped when it does not (43_download.md R273, R275). -/
theorem checkedFrame_keeps_inv {ack : TxPoint} {bs : List Byte} {t : Task} {s : State} (h : Running s t)
    (hop : t.op.downloads = true) (hpoint : pointOfOp t.op (.tx ack) = true)
    (hphase : phaseAtPoint s.seq (.tx ack) = true) (hescape : phaseAtPoint s.seq (.tx .escape) = true)
    (hrec : RecordsInv s { t with point := .tx ack }) (hack : verify cfg bs = true → AckInv { t with point := .tx ack }) :
    Inv (if (checkFrame cfg bs t).1 then enter (.tx ack) (checkFrame cfg bs t).2 s
      else enter (.tx .escape) (checkFrame cfg bs t).2 s) := by
  have hrun : Running s (checkFrame cfg bs t).2 := { h with }
  split
  · exact enter_keeps_inv hrun hpoint hphase ⟨nofun, nofun⟩ hrec (hack ‹_›)
  · exact enter_keeps_inv hrun hop hescape ⟨nofun, nofun⟩ ⟨hrun.revs, trivial⟩ trivial

/-- An Rx ends with the answer in the receive buffer, of the length asked for. -/
theorem afterRx_keeps_inv {p : RxPoint} {a : RxAnswer} {t : Task} {s : State} (h : AtPoint s t (.rx p))
    (hbusy : s.busy = true) (hbuf : t.rxbuf = answerBytes a)
    (hlen : ∀ bs, a = .data bs → bs.length = (rxRequest cfg t p).1) : Inv (afterRx cfg t p a s) := by
  have hrun := h.running
  cases p with
  | wake =>
    have hnil : t.records = [] := h.records.2
    simp only [afterRx]
    split
    · exact wakeDone_keeps_inv hrun hbusy hnil
    · split
      · rename_i hkw
        have hrun' : Running s { t with kw := t.kw + 1 } := { hrun with kw := ⟨Nat.le_add_left 1 _, hkw⟩ }
        exact enter_keeps_inv hrun' rfl h.phase ⟨nofun, nofun⟩ h.records trivial
      · exact wakeDone_keeps_inv hrun hbusy hnil
  | confirm =>
    have hnil : t.records = [] := h.records.2
    have hseq : s.seq = .send := eq_of_beq h.phase
    cases a with
    | timeout => exact commandDone_keeps_inv hrun hbusy hnil nofun
    | data bs =>
      simp only [afterRx]
      split
      · exact commandDone_keeps_inv hrun hbusy hnil fun _ => hseq
      · split
        · rename_i hks
          have hrun' : Running s { t with ks := t.ks + 1 } := { hrun with ks := ⟨Nat.le_add_left 1 _, hks⟩ }
          exact enter_keeps_inv hrun' h.point h.phase ⟨nofun, nofun⟩ h.records trivial
        · exact commandDone_keeps_inv hrun hbusy hnil fun _ => hseq
  | watermarkAck =>
    cases a with
    | timeout => exact attemptDone_unreachable_keeps_inv hrun hbusy
    | data bs =>
      simp only [afterRx]
      split
      · exact enter_keeps_inv hrun h.point h.phase ⟨nofun, nofun⟩ h.records trivial
      · exact attemptDone_noResult_keeps_inv hrun hbusy
  | header =>
    cases a with
    | timeout => exact attemptDone_unreachable_keeps_inv hrun hbusy
    | data bs =>
      have hseq : s.seq = .headerSent := eq_of_beq h.phase
      exact checkedFrame_keeps_inv hrun h.point h.point h.phase (by simp [phaseAtPoint, hseq]) h.records
        fun hverify => ⟨(congrArg List.length hbuf).trans (hlen bs rfl), hbuf ▸ hverify⟩
  | page =>
    cases a with
    | timeout => exact attemptDone_unreachable_keeps_inv hrun hbusy
    | data bs =>
      have hseq : s.seq = .pageLoop := eq_of_beq h.phase
      exact checkedFrame_keeps_inv hrun h.point h.point h.phase (by simp [phaseAtPoint, hseq]) h.records
        fun hverify => ⟨(congrArg List.length hbuf).trans (hlen bs rfl), hbuf ▸ hverify⟩
  | snapshot =>
    cases a with
    | timeout => exact finish_busy_keeps_inv _ hbusy hrun.fb hrun.results
    | data bs =>
      simp only [afterRx]
      split
      · exact finish_busy_keeps_inv (s := { s with result := _ }) _ hbusy hrun.fb hrun.results
      · split
        · rename_i hkr
          have hrun' : Running { s with seq := .pause } { t with pcrc := crc cfg bs } := { hrun with }
          exact enter_keeps_inv hrun' h.point rfl ⟨nofun, fun _ => hkr⟩ h.records trivial
        · exact finish_busy_keeps_inv _ hbusy hrun.fb hrun.results

theorem afterPause_keeps_inv {p : PausePoint} {t : Task} {s : State} (h : AtPoint s t (.pause p)) :
    Inv (afterPause t p s) := by
  have hrun := h.running
  cases p with
  | attempt =>
    have hkd : t.kd < cfg.retries := h.pause.1 rfl
    have hrun' : Running s { t with kd := t.kd + 1 } := { hrun with kd := ⟨Nat.le_add_left 1 _, hkd⟩ }
    exact startAttempt_keeps_inv hrun'
  | snapshot =>
    have hkr : t.kr < cfg.retries := h.pause.2 rfl
    have hrun' : Running s { t with kr := t.kr + 1 } := { hrun with kr := ⟨Nat.le_add_left 1 _, hkr⟩ }
    exact startSnapshotRead_keeps_inv hrun' (beq_iff_eq.mp h.point) h.records.2

theorem afterRx_receive_keeps_inv {p : RxPoint} {t : Task} {s : State} (h : AtPoint s t (.rx p)) (hbusy : s.busy = true) :
    Inv (afterRx cfg
      (keepAnswer (rxRequest cfg t p).1 (rxRequest cfg t p).2
        (receive (rxRequest cfg t p).1 (rxRequest cfg t p).2 s).1 t) p
      (receive (rxRequest cfg t p).1 (rxRequest cfg t p).2 s).1
      (receive (rxRequest cfg t p).1 (rxRequest cfg t p).2 s).2) := by
  have hbusy' : (receive (rxRequest cfg t p).1 (rxRequest cfg t p).2 s).2.busy = true := by
    obtain ⟨answers, draws, hstate⟩ := receive_state (rxRequest cfg t p).1 (rxRequest cfg t p).2 s
    rw [hstate]
    exact hbusy
  refine afterRx_keeps_inv (h.receive _ _) hbusy' rfl fun bs hbs => ?_
  rcases clampAnswer_cases (rxRequest cfg t p).1 (nextAnswer s).1 with hclamp | ⟨bs', hclamp, hlen⟩
  · cases hclamp.symm.trans hbs
  · cases hclamp.symm.trans hbs
    exact hlen

theorem advance_keeps_inv {s : State} {t : Task} (h : Inv s) (htask : s.task = some t) : Inv (advance cfg s) := by
  have hbusy : s.busy = true := busy_of_task htask
  match hp : t.point with
  | .tx p =>
    rw [advance_of_tx htask hp]
    have hat := atPoint_of_inv h htask hp
    have hsent : AtPoint (transmit (txBytesOf cfg s t p) s) t (.tx p) :=
      ⟨{ hat.running with }, hat.point, hat.phase, hat.pause, hat.records, hat.ack⟩
    exact afterTx_keeps_inv hsent hbusy
  | .rx p =>
    rw [advance_of_rx htask hp]
    exact afterRx_receive_keeps_inv (atPoint_of_inv h htask hp) hbusy
  | .pause p =>
    rw [advance_of_pause htask hp]
    exact afterPause_keeps_inv (atPoint_of_inv h htask hp)

/-! ## The host's accesses (10_state.md R32, R35, R37) -/

theorem Computes.fbInv {s s' : State} {i : Instr} (h : Computes s i s') (hfb : FbInv s) : FbInv s' := by
  cases h with
  | append acc v hfit =>
    obtain ⟨hwf, hbound, -⟩ := hfb
    have hfit' : s.lenNat + 2 ≤ 512 := hfit
    refine ⟨memWrite_wf _ _ hwf, fun x hx => ?_, ?_⟩
    · rcases mem_memWrite hx with ⟨-, hlt⟩ | hold
      · have hlen : (be16bytes v).length = 2 := rfl
        rw [cfg_fbSize]
        omega
      · exact hbound x hold
    · change (BitVec.ofNat 10 (s.lenNat + 2)).toNat ≤ 512
      rw [BitVec.toNat_ofNat]
      exact (Nat.mod_le _ _).trans hfit'
  | _ => exact hfb

/-- DEC_ARC may fix an unknown flag, under which RLIST is empty; no other operation touches flag or list. -/
theorem Computes.resultInv {s s' : State} {i : Instr} (h : Computes s i s') (hres : ResultInv s) : ResultInv s' := by
  cases h with
  | decode hi result rev hrev =>
    obtain ⟨hcap, hrevs, hsel⟩ := hres
    refine ⟨hcap, fun e he => ?_, hsel⟩
    have hflag : s.rev = flagOf e.rev := hrevs e he
    rcases hrev with hunknown | hsame
    · exact absurd (hflag.symm.trans hunknown) (flagOf_ne_unknown e.rev)
    · exact hsame.trans hflag
  | _ => exact hres

theorem write_fbInv {i : Nat} {b : Byte} {s : State} (h : FbInv s) (hi : i < cfg.fbSize) :
    FbInv { s with fb := Memory.write s.fb i b } := by
  obtain ⟨hwf, hbound, hlen⟩ := h
  refine ⟨write_wf i b hwf, fun x hx => ?_, hlen⟩
  rcases mem_write hx with rfl | hold
  · exact hi
  · exact hbound x hold

theorem cleared_resultInv (op : SerialOp) {s : State} (h : ResultInv s) : ResultInv (cleared op s) := by
  cases op with
  | download => exact ⟨Nat.zero_le _, nofun, rfl⟩
  | pollArc => exact ⟨Nat.zero_le _, nofun, rfl⟩
  | _ => exact h

/-- A serial operation starts with its counters at 1, no records, and the results it writes at its end cleared. -/
theorem newTask_running {op : SerialOp} {s : State} (hfb : FbInv s) (hres : ResultInv s) (hdone : s.done = false)
    (hlastop : s.lastop = op.opcode) : Running (cleared op s) (newTask cfg op) where
  fb := by cases op <;> exact hfb
  results := cleared_resultInv op hres
  done := (cleared_done op s).trans hdone
  lastop := (cleared_kept op s).lastop.trans hlastop
  result := by cases op <;> simp [newTask, cleared, clearSel, clearProg]
  rlist := by cases op <;> simp [newTask, SerialOp.downloads, cleared, clearSel, clearProg]
  received := List.nil_suffix
  kw := by simp [newTask]
  ks := by simp [newTask]
  kr := by simp [newTask]
  kd := by simp [newTask]
  revs := nofun

theorem opcode_instr (op : SerialOp) : op.instr.opcode = op.opcode := by cases op <;> rfl

theorem CommandEffect.keeps_inv {w : Word} {s u : State} (h : CommandEffect w s u) (hinv : Inv s) : Inv u := by
  cases h with
  | computes code hidle hdec hcomp =>
    have hidle' := (congrArg State.task hcomp.frame).trans hidle
    have hseq := congrArg State.seq hcomp.frame
    exact finish_idle_keeps_inv code hidle' (hcomp.fbInv hinv.fb) (hcomp.resultInv hinv.results)
      (hseq ▸ (hinv.idle hidle).2)
  | @starts op hidle hdec =>
    have hop : opField w = op.opcode := (opcode_of_decodeWord hdec).symm.trans (opcode_instr op)
    exact startWake_keeps_inv (newTask_running hinv.fb hinv.results rfl hop) rfl
  | illegal hidle => exact finish_idle_keeps_inv _ hidle hinv.fb hinv.results (hinv.idle hidle).2
  | aborts hbusy => exact ⟨hinv.fb, hinv.results, (absurd · hbusy), hinv.task⟩
  | lost hbusy => exact ⟨hinv.fb, hinv.results, hinv.idle, hinv.task⟩

theorem HostEffect.keeps_inv {a : Access} {s u : State} (h : HostEffect s a u) (hinv : Inv s) : Inv u := by
  cases h with
  | commands hcmd => exact hcmd.keeps_inv hinv
  | writesLen v hidle hlegal =>
    obtain ⟨hwf, hbound, -⟩ := hinv.fb
    exact ⟨⟨hwf, hbound, hlegal⟩, hinv.results, hinv.idle, hinv.task⟩
  | writesFb v hidle haddr hi => exact ⟨write_fbInv hinv.fb hi, hinv.results, hinv.idle, hinv.task⟩
  | _ => exact ⟨hinv.fb, hinv.results, hinv.idle, hinv.task⟩

/-! ## Reset, and every step -/

/-- Settles O51: nothing is stored, nothing runs. -/
theorem resetInv : Obligations.ResetInv :=
  ⟨⟨rfl, nofun, Nat.zero_le _⟩, ⟨Nat.zero_le _, nofun, rfl⟩, fun _ => ⟨rfl, .inl rfl⟩, nofun⟩

/-- Settles O52, by what each kind of step does to the invariant. -/
theorem stepKeepsInv : Obligations.StepKeepsInv := by
  intro s u hinv hstep
  cases stepEffect_of_step hstep with
  | cancels hdue =>
    obtain ⟨rxLog, h⟩ := cancel_eq_finish cfg hdue
    rw [h]
    exact finish_busy_keeps_inv (s := { s with rxLog := rxLog }) _ (busy_of_cancelDue hdue) hinv.fb hinv.results
  | advances l htask =>
    have hinv' : Inv { s with inputs := l } := ⟨hinv.fb, hinv.results, hinv.idle, hinv.task⟩
    exact advance_keeps_inv hinv' htask
  | @accesses a rest u hin heff =>
    have hinv' : Inv { s with inputs := rest } := ⟨hinv.fb, hinv.results, hinv.idle, hinv.task⟩
    exact heff.keeps_inv hinv'
  | listens l d => exact ⟨hinv.fb, hinv.results, hinv.idle, hinv.task⟩
  | resets hin => exact ⟨resetInv.fb, resetInv.results, resetInv.idle, resetInv.task⟩

end Sys2Proof.Proofs

/-!
Host accesses to the registers: a command written to CMD, every register read field by field, and the writes to WM, FBLEN and the
read-only registers (10_state.md R31 to R41, R48; 44_control.md R321, R324).
-/
namespace Sys2Proof.Proofs

open Sys2Proof.Machine Sys2Proof.Laws

/-! ## Register accesses by name -/

theorem locate_regAddr (r : Reg) : locate .word (regAddr r) = .reg r := by cases r <;> decide

theorem hostAccess_read_reg (r : Reg) (s : State) :
    hostAccess (.read .word (regAddr r)) s = .next (readReg r s) := by
  simp only [hostAccess, locate_regAddr]

theorem hostAccess_write_reg (r : Reg) (v : Word) (s : State) :
    hostAccess (.write .word (regAddr r) v) s = writeReg r v s := by
  simp only [hostAccess, locate_regAddr]

/-- While idle a register is read at its value. -/
theorem hostAccess_read_reg_of_idle (r : Reg) {s : State} (h : s.task = none) :
    hostAccess (.read .word (regAddr r)) s = .next { s with rdata := some (.word (regWord s r)) } := by
  rw [hostAccess_read_reg, readReg, if_pos (.inr (busy_of_idle h))]
  rfl

/-- STATUS is read at its value whatever runs. -/
theorem hostAccess_read_status (s : State) :
    hostAccess (.read .word 0x004) s = .next { s with rdata := some (.word (statusWord s)) } := by
  refine (hostAccess_read_reg .status s).trans ?_
  rw [readReg, if_pos (.inl rfl)]
  rfl

/-! ## Commands (10_state.md R32) -/

/-- The first atomic step of a serial operation, or what a host-only one computes, leaves what acceptance wrote. -/
theorem CommandEffect.accepted {w : Word} {s u : State} (h : CommandEffect w s u) (hidle : s.task = none) :
    u.cmd = w ∧ u.lastop = w.extractLsb' 0 8 ∧ u.ovr = false := by
  cases h with
  | computes code _ hdec hcomp =>
    exact ⟨congrArg State.cmd hcomp.frame, congrArg State.lastop hcomp.frame, congrArg State.ovr hcomp.frame⟩
  | @starts op _ hdec =>
    have hkept := startWake_cleared_kept op (newTask cfg op) (accept w s)
    exact ⟨hkept.cmd, hkept.lastop, hkept.ovr⟩
  | illegal _ => exact ⟨rfl, rfl, rfl⟩
  | aborts hbusy => exact absurd hidle hbusy
  | lost hbusy => exact absurd hidle hbusy

/-- Settles O5, by the cases of a write to CMD. -/
theorem commandWrite : Obligations.CommandWrite := by
  intro s w
  have hwrite : hostAccess (.write .word 0x000 w) s = writeCmd w s := hostAccess_write_reg .cmd w s
  rw [hwrite]
  refine ⟨fun i hidle hdec => writeCmd_of_idle hidle hdec, fun hidle u hu => ?_, fun hbusy hop => ?_, fun hbusy hop => ?_,
    fun hidle => hostAccess_read_reg_of_idle .cmd hidle, rfl⟩
  · exact (commandEffect_of_writeCmd hu).accepted hidle
  · exact writeCmd_abort_of_busy hbusy (decodeWord_eq_abort_iff.mpr hop)
  · exact writeCmd_lost_of_busy hbusy (hop ∘ decodeWord_eq_abort_iff.mp)

/-- Settles O6: nothing is due while idle, so the step is the host's write to CMD. -/
theorem stepRunsAcceptedCommand : Obligations.StepRunsAcceptedCommand := by
  intro s nbits w i hidle hdec
  have hdue : cancelDue (s.withFetchWord nbits w) = false := cancelDue_of_idle hidle
  rw [step_of_host hdue (withFetchWord_inputs s nbits w)]
  exact (hostAccess_write_reg .cmd _ _).trans
    (writeCmd_of_idle (s := s) hidle (decodeWord_of_decodeTableWord hdec))

/-! ## Reset (10_state.md R48) -/

/-- Settles O8: each is the value the reset state is written with. -/
theorem resetValues : Obligations.ResetValues := by
  refine ⟨rfl, rfl, rfl, rfl, rfl, rfl, rfl, rfl, rfl, rfl, rfl, fun _ => rfl, rfl, rfl, rfl, ?_, ?_, ?_, rfl, rfl, rfl,
    rfl, ?_⟩ <;> decide

/-! ## Fields of a register word (10_state.md R31 to R41) -/

/-- The flags of STATUS, its least significant bits. -/
theorem statusWord_flags (s : State) :
    (statusWord s).getLsbD 0 = s.busy ∧ (statusWord s).getLsbD 1 = s.done ∧ (statusWord s).getLsbD 2 = s.valid ∧
    (statusWord s).getLsbD 3 = s.ovr := by
  have hflags (x : BitVec 28) (ovr valid done busy : Bool) :
      let w := x ++ BitVec.ofBool ovr ++ BitVec.ofBool valid ++ BitVec.ofBool done ++ BitVec.ofBool busy
      w.getLsbD 0 = busy ∧ w.getLsbD 1 = done ∧ w.getLsbD 2 = valid ∧ w.getLsbD 3 = ovr := by
    simp only [BitVec.getLsbD_append, Nat.reduceLT, Nat.reduceSub, ↓reduceIte, BitVec.getLsbD_ofBool, decide_true,
      Bool.true_and, and_self]
  exact hflags _ s.ovr s.valid s.done s.busy

/-- The fields of STATUS above its flags `x`, and the reserved bits between them. -/
theorem statusFields_read (seq code : BitVec 4) (lastop : BitVec 8) (rev : BitVec 2) (x₃ x₂ x₁ x₀ : BitVec 1) :
    let w := 0#4 ++ seq ++ lastop ++ 0#6 ++ rev ++ code ++ x₃ ++ x₂ ++ x₁ ++ x₀
    w.extractLsb' 4 4 = code ∧ w.extractLsb' 8 2 = rev ∧ w.extractLsb' 10 6 = 0#6 ∧ w.extractLsb' 16 8 = lastop ∧
    w.extractLsb' 24 4 = seq ∧ w.extractLsb' 28 4 = 0#4 := by
  simp (disch := decide) only [BitVec.extractLsb'_append_eq_of_le, BitVec.extractLsb'_append_eq_of_add_le,
    Nat.reduceSub, BitVec.extractLsb'_eq_self, and_self]

/-- Settles O54: STATUS is readable whatever runs, and each field is read off its word. -/
theorem statusRead : Obligations.StatusRead := by
  refine ⟨fun s => ⟨statusWord s, ?_, ?_⟩, by decide, by decide, by decide⟩
  · exact hostAccess_read_status s
  · obtain ⟨hbusy, hdone, hvalid, hovr⟩ := statusWord_flags s
    exact ⟨hbusy, hdone, hvalid, hovr, statusFields_read s.seq.bits s.code.bits s.lastop s.rev.bits _ _ _ _⟩

/-- The fields of SEL: SEL_VALID above twelve reserved bits above INDEX. -/
theorem selWord_fields (s : State) :
    (selWord s).extractLsb' 0 19 = s.selIndex ∧ (selWord s).extractLsb' 19 12 = 0 ∧ (selWord s).getLsbD 31 = s.selValid := by
  have hfields (valid : Bool) (zero : BitVec 12) (index : BitVec 19) :
      let w := BitVec.ofBool valid ++ zero ++ index
      w.extractLsb' 0 19 = index ∧ w.extractLsb' 19 12 = zero ∧ w.getLsbD 31 = valid := by
    simp (disch := decide) only [BitVec.extractLsb'_append_eq_of_le, BitVec.extractLsb'_append_eq_of_add_le,
      BitVec.getLsbD_append, Nat.reduceLT, Nat.reduceSub, ↓reduceIte, BitVec.extractLsb'_eq_self, BitVec.getLsbD_ofBool,
      decide_true, Bool.true_and, and_self]
  exact hfields s.selValid 0 s.selIndex

/-- COUNT is the length of RLIST as long as that fits its 19 bits (log 21). -/
theorem rlcntWord_toNat {s : State} (h : s.rlist.length < 2 ^ 19) : (rlcntWord s).toNat = s.rlist.length := by
  have hcount (n : Nat) (hn : n < 2 ^ 19) : (0#13 ++ BitVec.ofNat 19 n).toNat = n := by
    rw [BitVec.toNat_append, BitVec.toNat_ofNat, BitVec.toNat_ofNat, Nat.mod_eq_of_lt hn]
    simp
  exact hcount _ h

/-- Settles O55: a register is read at its word, and each word is the concatenation of its fields. -/
theorem registerReads : Obligations.RegisterReads := by
  intro s hidle hcap
  have hread (r : Reg) := hostAccess_read_reg_of_idle r hidle
  have hbusy : s.busy = false := busy_of_idle hidle
  obtain ⟨hindex, hzero, hvalid⟩ := selWord_fields s
  refine ⟨crcWord s, fblenWord s, wmWord s, rlcntWord s, selWord s, progWord s, hread .crc, ?_, ?_, hread .fblen, ?_, ?_,
    hread .wm, ?_, ?_, hread .rlcnt, rlcntWord_toNat (by omega), hread .sel, hindex, hzero, hvalid, hread .prog, ?_, ?_,
    ?_, ?_⟩
  · exact BitVec.extractLsb'_append_eq_right (a := 0#16)
  · exact BitVec.extractLsb'_append_eq_left (b := s.acc)
  · exact BitVec.extractLsb'_append_eq_right (a := 0#22)
  · exact BitVec.extractLsb'_append_eq_left (b := s.len)
  · exact BitVec.extractLsb'_append_eq_right (a := s.wmDate)
  · exact BitVec.extractLsb'_append_eq_left (b := s.wmTime)
  · exact BitVec.extractLsb'_append_eq_right (a := s.pidx)
  · exact BitVec.extractLsb'_append_eq_left (b := s.pages)
  · simp only [hostAccess, hbusy]; rfl
  · simp only [hostAccess, hbusy]; rfl

/-! ## Register writes (44_control.md R321) -/

theorem writeReg_of_busy {r : Reg} {s : State} (v : Word) (hbusy : s.task ≠ none) (hr : r ≠ .cmd) :
    writeReg r v s = .next (loseWrite s) := by
  have hb : s.busy = true := (busy_iff s).mpr hbusy
  cases r with
  | cmd => exact absurd rfl hr
  | _ => simp [writeReg, ignoreWrite, hb]

theorem writeReg_readOnly_of_idle {r : Reg} {s : State} (v : Word) (hidle : s.task = none)
    (hr : r ∈ [Reg.status, .crc, .rlcnt, .sel, .prog]) : writeReg r v s = .next s := by
  have hb : s.busy = false := busy_of_idle hidle
  cases r <;> simp [writeReg, ignoreWrite, hb] at hr ⊢

theorem lenField_toNat (v : Word) : (v.extractLsb' 0 10).toNat = v.toNat % 1024 := by simp

theorem writeFblen_of_legal {v : Word} {s : State} (h : v.toNat % 1024 ≤ 512) :
    writeFblen v s = { s with len := BitVec.ofNat 10 (v.toNat % 1024) } := by
  rw [writeFblen, lenField_toNat, cfg_fbSize, if_pos h, ← lenField_toNat, BitVec.ofNat_toNat, BitVec.setWidth_eq]

theorem writeFblen_of_illegal {v : Word} {s : State} (h : 512 < v.toNat % 1024) : writeFblen v s = s := by
  rw [writeFblen, lenField_toNat, cfg_fbSize, if_neg (Nat.not_le.mpr h)]

/-- An address whose number is the offset of one of `rs` is that register's. -/
theorem exists_regAddr_of_mem {rs : List Reg} {a : BitVec 12} (h : a.toNat ∈ rs.map Reg.offset) :
    ∃ r ∈ rs, a = regAddr r := by
  obtain ⟨r, hr, heq⟩ := List.mem_map.mp h
  exact ⟨r, hr, by rw [regAddr, heq, BitVec.ofNat_toNat, BitVec.setWidth_eq]⟩

/-- Settles O57, register by register. -/
theorem registerWrites : Obligations.RegisterWrites := by
  intro s v
  refine ⟨fun hidle => ⟨?_, fun hlegal => ?_, fun hillegal => ?_, fun a ha => ?_⟩, fun hbusy a ha => ?_⟩
  · refine (hostAccess_write_reg .wm v s).trans ?_
    simp only [writeReg, busy_of_idle hidle]
    rfl
  · refine (hostAccess_write_reg .fblen v s).trans ?_
    simp only [writeReg, busy_of_idle hidle, writeFblen_of_legal hlegal]
    rfl
  · refine (hostAccess_write_reg .fblen v s).trans ?_
    simp only [writeReg, busy_of_idle hidle, writeFblen_of_illegal hillegal]
    rfl
  · obtain ⟨r, hr, rfl⟩ := exists_regAddr_of_mem (rs := [.status, .crc, .rlcnt, .sel, .prog]) ha
    rw [hostAccess_write_reg, writeReg_readOnly_of_idle v hidle hr]
  · obtain ⟨r, hr, rfl⟩ := exists_regAddr_of_mem (rs := [.status, .crc, .fblen, .wm, .rlcnt, .sel, .prog]) ha
    rw [hostAccess_write_reg, writeReg_of_busy v hbusy (by rintro rfl; simp at hr)]
    rfl

end Sys2Proof.Proofs

/-!
The serial channel: what an atomic step, a host access and a cancellation each put on it (20_memory.md R81, R82, R84, R88).
-/
namespace Sys2Proof.Proofs

open Sys2Proof.Machine Sys2Proof.Laws

/-- What an observer of the serial channel has seen since reset: the transmissions and the Rx requests (20_memory.md R84). -/
def channel (s : State) : List (List Byte) × List RxRecord := (s.txLog, s.rxLog)

/-! ## The work between suspension points is silent (20_memory.md R85) -/

theorem enter_channel (p : Point) (t : Task) (s : State) : channel (enter p t s) = channel s := by
  rcases enter_cases p t s with ⟨-, h⟩ | ⟨-, h⟩ <;> rw [h] <;> rfl

theorem selectNewest_channel (l : List ArcEntry) (s : State) : channel (selectNewest l s) = channel s := by
  rcases selectNewest_cases l s with h | ⟨j, e, -, -, h⟩ <;> rw [h]
  rfl

theorem attemptDone_channel (c : Config) (t : Task) (r : Attempt) (s : State) :
    channel (attemptDone c t r s) = channel s := by
  unfold attemptDone
  split
  · rfl
  · split
    · exact selectNewest_channel _ { s with rlist := _ }
    · rfl
  · split
    · split
      · exact enter_channel (.pause .attempt) t { s with seq := .pause }
      · rfl
    · rfl

theorem commandDone_channel (c : Config) (t : Task) (r : CmdResult) (s : State) :
    channel (commandDone c t r s) = channel s := by
  unfold commandDone
  split
  · rfl
  · rfl
  · rfl
  · exact enter_channel (.rx .snapshot) _ { s with seq := .dataRead }
  · rfl
  · exact enter_channel _ _ s
  · exact attemptDone_channel c t _ s
  · exact enter_channel _ _ s
  · exact attemptDone_channel c t _ s

theorem wakeDone_channel (c : Config) (t : Task) (r : CmdResult) (s : State) :
    channel (wakeDone c t r s) = channel s := by
  unfold wakeDone
  split
  · rfl
  · exact enter_channel (.tx .send) _ { s with seq := .send }
  · exact commandDone_channel c t _ s

theorem pageLoop_channel (c : Config) (i : Nat) (t : Task) (s : State) : channel (pageLoop c i t s) = channel s := by
  unfold pageLoop
  split
  · exact enter_channel (.rx .page) t { s with seq := .pageLoop, pidx := BitVec.ofNat 16 i }
  · exact attemptDone_channel c t _ s

theorem afterTx_channel (c : Config) (t : Task) (p : TxPoint) (s : State) : channel (afterTx c t p s) = channel s := by
  cases p with
  | wake => exact enter_channel _ t s
  | send => exact enter_channel _ t s
  | watermark => exact enter_channel (.rx .watermarkAck) t { s with seq := .headerSent }
  | escape => exact attemptDone_channel c t .noResult s
  | headerAck => exact pageLoop_channel c 0 _ { s with seq := .headerReceived, pages := le16 t.rxbuf 0 }
  | pageAck => exact pageLoop_channel c (s.pidx.toNat + 1) _ { s with rev := _ }

theorem afterRx_channel (c : Config) (t : Task) (p : RxPoint) (a : RxAnswer) (s : State) :
    channel (afterRx c t p a s) = channel s := by
  cases p with
  | wake => simp only [afterRx]; split_ifs <;> simp only [wakeDone_channel, enter_channel]
  | confirm =>
    cases a with
    | timeout => exact commandDone_channel c t .unreachable s
    | data bs => simp only [afterRx]; split_ifs <;> simp only [commandDone_channel, enter_channel]
  | watermarkAck =>
    cases a with
    | timeout => exact attemptDone_channel c t .unreachable s
    | data bs => simp only [afterRx]; split_ifs <;> simp only [attemptDone_channel, enter_channel]
  | header =>
    cases a with
    | timeout => exact attemptDone_channel c t .unreachable s
    | data bs => simp only [afterRx]; split <;> exact enter_channel _ _ s
  | page =>
    cases a with
    | timeout => exact attemptDone_channel c t .unreachable s
    | data bs => simp only [afterRx]; split <;> exact enter_channel _ _ s
  | snapshot =>
    cases a with
    | timeout => rfl
    | data bs =>
      simp only [afterRx]
      split
      · rfl
      · split
        · exact enter_channel (.pause .snapshot) _ { s with seq := .pause }
        · rfl

theorem afterPause_channel (t : Task) (p : PausePoint) (s : State) : channel (afterPause t p s) = channel s := by
  cases p with
  | attempt => exact enter_channel (.tx .wake) _ { clearProg s with seq := .wake }
  | snapshot => exact enter_channel (.rx .snapshot) _ { s with seq := .dataRead }

/-! ## The host is not on the channel (20_memory.md R88) -/

theorem cleared_channel (op : SerialOp) (s : State) : channel (cleared op s) = channel s := by cases op <;> rfl

theorem CommandEffect.channel_eq {w : Word} {s u : State} (h : CommandEffect w s u) : channel u = channel s := by
  cases h with
  | computes code hidle hdec hcomp => exact (congrArg channel hcomp.frame :)
  | @starts op hidle hdec =>
    exact (enter_channel (.tx .wake) _ { cleared op (accept w s) with seq := .wake }).trans (cleared_channel op _)
  | illegal hidle => rfl
  | aborts hbusy => rfl
  | lost hbusy => rfl

theorem HostEffect.channel_eq {a : Access} {s u : State} (h : HostEffect s a u) : channel u = channel s := by
  cases h with
  | commands hcmd => exact hcmd.channel_eq
  | _ => rfl

/-! ## A step on the channel -/

/-- What a step from `s` to `u` does on the channel: nothing, the Tx the operation waits in, or the end of the Rx it waits in,
whose answer has the length asked for; an abandoned Rx has none (log 9). -/
inductive ChannelEffect (s u : State) : Prop
  | silent (h : channel u = channel s)
  | transmits {t : Task} {p : TxPoint} (htask : s.task = some t) (hp : t.point = .tx p)
      (h : channel u = (s.txLog ++ [txBytesOf cfg s t p], s.rxLog))
  | receives {t : Task} {p : RxPoint} (answer : Option RxAnswer) (htask : s.task = some t) (hp : t.point = .rx p)
      (hlen : ∀ bs, answer = some (.data bs) → bs.length = (rxRequest cfg t p).1)
      (h : channel u =
        (s.txLog, s.rxLog ++ [{ n := (rxRequest cfg t p).1, timeout := (rxRequest cfg t p).2, answer := answer }]))

/-- An answer with data has the bytes asked for (20_memory.md R82). -/
theorem receive_length {n : Nat} {m : Millis} {s : State} {bs : List Byte} (h : (receive n m s).1 = .data bs) :
    bs.length = n := by
  have hclamp : clampAnswer n (nextAnswer s).1 = .data bs := h
  rcases clampAnswer_cases n (nextAnswer s).1 with htime | ⟨bs', hdata, hlen⟩
  · rw [hclamp] at htime; cases htime
  · rw [hclamp] at hdata; cases hdata; exact hlen

theorem receive_channel (n : Nat) (m : Millis) (s : State) :
    channel (receive n m s).2 =
      (s.txLog, s.rxLog ++ [{ n := n, timeout := m, answer := some (receive n m s).1 }]) := by
  obtain ⟨answers, draws, h⟩ := receive_state n m s
  rw [h]
  rfl

theorem channelEffect_advance {s : State} {t : Task} (l : List Input) (htask : s.task = some t) :
    ChannelEffect s (advance cfg { s with inputs := l }) := by
  match hp : t.point with
  | .tx p =>
    rw [advance_of_tx (s := { s with inputs := l }) htask hp]
    exact .transmits htask hp (afterTx_channel cfg t p _)
  | .rx p =>
    rw [advance_of_rx (s := { s with inputs := l }) htask hp]
    exact .receives _ htask hp (fun bs hbs => receive_length (Option.some.inj hbs))
      ((afterRx_channel cfg _ p _ _).trans (receive_channel _ _ _))
  | .pause p =>
    rw [advance_of_pause (s := { s with inputs := l }) htask hp]
    exact .silent (afterPause_channel t p _)

theorem channelEffect_cancel {s : State} (hdue : cancelDue s = true) : ChannelEffect s (cancel cfg s) := by
  obtain ⟨t, htask⟩ := busy_eq_true.mp (busy_of_cancelDue hdue)
  match hp : t.point with
  | .tx p => simp [cancelDue, htask, hp] at hdue
  | .rx p =>
    refine .receives none htask hp (fun bs hbs => by cases hbs) ?_
    simp only [cancel, htask, hp]
    rfl
  | .pause p =>
    refine .silent ?_
    simp only [cancel, htask, hp]
    rfl

theorem channelEffect_of_step {s u : State} (h : StepEffect s u) (hreset : resetNext s = false) : ChannelEffect s u := by
  cases h with
  | cancels hdue => exact channelEffect_cancel hdue
  | advances l htask => exact channelEffect_advance l htask
  | accesses hin heff => exact .silent heff.channel_eq
  | listens l d => exact .silent rfl
  | resets hin => rw [resetNext_of_inputs hin] at hreset; cases hreset

/-- Settles O50, by what a step can do on the channel. -/
theorem serialChannel : Obligations.SerialChannel := by
  intro s u hstep hreset
  cases channelEffect_of_step (stepEffect_of_step hstep) hreset with
  | silent h =>
    obtain ⟨htx, hrx⟩ := Prod.mk.inj h
    exact ⟨.inl htx, .inl hrx⟩
  | @transmits t p htask hp h =>
    obtain ⟨htx, hrx⟩ := Prod.mk.inj h
    exact ⟨.inr ⟨t, p, htask, hp, htx, hrx⟩, .inl hrx⟩
  | @receives t p answer htask hp hlen h =>
    obtain ⟨htx, hrx⟩ := Prod.mk.inj h
    exact ⟨.inl htx, .inr ⟨t, p, _, htask, hp, hrx, htx, rfl, hlen⟩⟩

end Sys2Proof.Proofs

/-!
The address map and the accesses it sends each address to: register words, frame-buffer bytes, reserved ranges and the accesses
outside the interface (20_memory.md R70 to R73, R86; 44_control.md R321, R324).
-/
namespace Sys2Proof.Proofs

open Sys2Proof.Machine Sys2Proof.Laws

/-! ## Where an access goes (20_memory.md R71, R72) -/

theorem width_bytes_pos (w : Width) : 0 < w.bytes := by cases w <;> decide

theorem inReserved_iff {a n : Nat} :
    inReserved a n = true ↔ (0x020 ≤ a ∧ a + n ≤ 0x100) ∨ (0x300 ≤ a ∧ a + n ≤ 0x1000) := by
  simp [inReserved]

theorem regAddr_isAligned (r : Reg) : (regAddr r).toNat < 0x020 ∧ (regAddr r).toNat % 4 = 0 := by
  cases r <;> decide

/-- Every aligned word below 0x020 is a register. -/
theorem exists_regAddr_of_aligned {a : BitVec 12} (hlow : a.toNat < 0x020) (haligned : a.toNat % 4 = 0) :
    ∃ r, a = regAddr r := by
  have hmem : a.toNat ∈ [Reg.cmd, .status, .crc, .fblen, .wm, .rlcnt, .sel, .prog].map Reg.offset := by
    simp only [List.map, Reg.offset, List.mem_cons, List.not_mem_nil]
    omega
  obtain ⟨r, -, ha⟩ := exists_regAddr_of_mem hmem
  exact ⟨r, ha⟩

theorem locate_of_inReserved {w : Width} {a : BitVec 12} (h : inReserved a.toNat w.bytes = true) :
    locate w a = .reserved := by
  simp [locate, h]

theorem inReserved_of_locate {w : Width} {a : BitVec 12} (h : locate w a = .reserved) :
    inReserved a.toNat w.bytes = true := by
  unfold locate at h
  dsimp only at h
  split at h
  · assumption
  · split at h
    · cases w <;> cases h
    · split at h <;> cases h

theorem locate_fbByte {a : BitVec 12} {i : Nat} (ha : a.toNat = 0x100 + i) (hi : i < 512) :
    locate .byte a = .fb i := by
  have hres : inReserved (0x100 + i) Width.byte.bytes ≠ true := by
    rw [Ne, inReserved_iff, Width.bytes]
    omega
  have hhi : 0x100 + i < 0x300 := by omega
  simp [locate, ha, hres, hhi]

/-- What is no register word, no frame-buffer byte and not inside a reserved range is outside the interface. -/
theorem locate_outside {w : Width} {a : BitVec 12} (hreg : w = .word → ∀ r, a ≠ regAddr r)
    (hfb : w = .byte → a.toNat < 0x100 ∨ 0x300 ≤ a.toNat) (hres : inReserved a.toNat w.bytes ≠ true) :
    locate w a = .outside := by
  cases hloc : locate w a with
  | reg r =>
    obtain ⟨hw, ha⟩ := locate_eq_reg hloc
    exact absurd ha (hreg hw r)
  | fb i =>
    obtain ⟨hw, ha, hi⟩ := locate_eq_fb hloc
    have := hfb hw
    omega
  | reserved => exact absurd (inReserved_of_locate hloc) hres
  | outside => rfl

theorem hostAccess_outside {w : Width} {a : BitVec 12} (v : Word) (s : State) (h : locate w a = .outside) :
    hostAccess (.read w a) s = .refused .outsideInterface ∧
    hostAccess (.write w a v) s = .refused .outsideInterface := by
  simp [hostAccess, h]

/-! ## Reads (20_memory.md R86, 44_control.md R324) -/

/-- A read left the block as it was, and took a free value only from a running operation (log 3). -/
def ReadsOnly (s u : State) : Prop :=
  u = { s with rdata := u.rdata, draws := u.draws } ∧ (s.task = none → u.draws = s.draws)

theorem deliver_readsOnly (d : ReadData) (s : State) : ReadsOnly s (deliver d s) := ⟨rfl, fun _ => rfl⟩

theorem deliverDraw_readsOnly (d : ReadData) {s : State} (hbusy : s.busy = true) : ReadsOnly s (deliverDraw d s) :=
  ⟨rfl, fun hidle => absurd hidle ((busy_iff s).mp hbusy)⟩

/-- The host receives a word from every register, its value or, while an operation runs, a free one. -/
theorem readReg_cases (r : Reg) (s : State) :
    ∃ x, readReg r s = deliver (.word x) s ∨ (s.busy = true ∧ readReg r s = deliverDraw (.word x) s) := by
  unfold readReg
  split
  · exact ⟨_, .inl rfl⟩
  · rename_i h
    exact ⟨_, .inr ⟨by simpa using (not_or.mp h).2, rfl⟩⟩

theorem readReg_readsOnly (r : Reg) (s : State) : ReadsOnly s (readReg r s) := by
  obtain ⟨x, h | ⟨hbusy, h⟩⟩ := readReg_cases r s <;> rw [h]
  · exact deliver_readsOnly _ s
  · exact deliverDraw_readsOnly _ hbusy

theorem readFb_of_busy {s : State} (i : Nat) (hbusy : s.busy = true) :
    readFb i s = .next (deliverDraw (.byte (Config.busyByte s.draws)) s) := by
  simp [readFb, hbusy]

theorem readFb_of_written {s : State} {i : Nat} {b : Byte} (hidle : s.task = none) (hb : Memory.read s.fb i = some b) :
    readFb i s = .next (deliver (.byte b) s) := by
  simp [readFb, busy_of_idle hidle, hb]

theorem readFb_of_unwritten {s : State} {i : Nat} (hidle : s.task = none) (hb : Memory.read s.fb i = none) :
    readFb i s = .fault .unwrittenFb := by
  simp [readFb, busy_of_idle hidle, hb]

theorem readFb_readsOnly {i : Nat} {s u : State} (h : readFb i s = .next u) : ReadsOnly s u := by
  by_cases hidle : s.task = none
  · cases hb : Memory.read s.fb i with
    | some b =>
      rw [readFb_of_written hidle hb] at h
      cases h
      exact deliver_readsOnly _ s
    | none => rw [readFb_of_unwritten hidle hb] at h; cases h
  · have hbusy : s.busy = true := (busy_iff s).mpr hidle
    rw [readFb_of_busy i hbusy] at h
    cases h
    exact deliverDraw_readsOnly _ hbusy

/-- A read of a typed result: its value `d`, or the free one `d'` while an operation runs (log 13). -/
theorem readTyped_readsOnly (d d' : ReadData) (s : State) :
    ReadsOnly s (if s.busy then deliverDraw d' s else deliver d s) := by
  split
  · exact deliverDraw_readsOnly _ ‹_›
  · exact deliver_readsOnly _ s

/-- Settles O56, by the place the read goes to. -/
theorem readsHaveNoSideEffect : Obligations.ReadsHaveNoSideEffect := by
  intro s u a hread h
  change ReadsOnly s u
  cases a with
  | write w addr v => exact absurd rfl (hread w addr v)
  | read w addr =>
    simp only [hostAccess] at h
    split at h
    · cases h; exact readReg_readsOnly _ s
    · exact readFb_readsOnly h
    · cases h; exact deliver_readsOnly _ s
    · cases h
  | readResult => cases h; exact readTyped_readsOnly _ _ s
  | readRlist => cases h; exact readTyped_readsOnly _ _ s

/-! ## Bytes of the frame buffer (20_memory.md R73) -/

theorem hostAccess_fbByte {a : BitVec 12} {i : Nat} (s : State) (ha : a.toNat = 0x100 + i) (hi : i < 512) :
    hostAccess (.read .byte a) s = readFb i s ∧
    ∀ v, hostAccess (.write .byte a v) s = .next (writeFb i (v.extractLsb' 0 8) s) := by
  simp [hostAccess, locate_fbByte ha hi]

theorem writeFb_of_idle {s : State} (i : Nat) (b : Byte) (hidle : s.task = none) :
    writeFb i b s = { s with fb := Memory.write s.fb i b } := by
  simp [writeFb, busy_of_idle hidle]

theorem writeFb_of_busy {s : State} (i : Nat) (b : Byte) (hbusy : s.busy = true) : writeFb i b s = loseWrite s := by
  simp [writeFb, hbusy]

/-- Settles O58: the address is that of a frame-buffer byte, and a read after a write is the storage's law. -/
theorem frameBufferAccess : Obligations.FrameBufferAccess := by
  intro s a i ha hi
  obtain ⟨hread, hwrite⟩ := hostAccess_fbByte s ha hi
  refine ⟨fun hidle => ⟨fun v => ⟨_, hwrite v, ?_⟩, fun b hb => ?_⟩, fun hrun => ?_⟩
  · rw [writeFb_of_idle i _ hidle]
    refine ⟨rfl, ?_, fun j hj => ?_⟩
    · rw [read_write, if_pos rfl]
    · rw [read_write, if_neg hj]
  · rw [hread, readFb_of_written hidle hb]
    rfl
  · have hbusy : s.busy = true := (busy_iff s).mpr hrun
    refine ⟨fun v => ?_, Config.busyByte s.draws, ?_⟩
    · rw [hwrite, writeFb_of_busy i _ hbusy]
      rfl
    · rw [hread, readFb_of_busy i hbusy]
      rfl

/-! ## Reserved addresses (44_control.md R321; log 7, log 8) -/

theorem ignoreWrite_of_idle {s : State} (h : s.task = none) : ignoreWrite s = s := by
  simp [ignoreWrite, busy_of_idle h]

theorem ignoreWrite_of_busy {s : State} (h : s.task ≠ none) : ignoreWrite s = loseWrite s := by
  simp [ignoreWrite, (busy_iff s).mpr h]

theorem hostAccess_read_reserved {w : Width} {a : BitVec 12} (s : State) (h : locate w a = .reserved) :
    hostAccess (.read w a) s = .next (deliver (if w = .byte then .byte 0 else .word 0) s) := by
  cases w <;> simp [hostAccess, h]

theorem hostAccess_write_reserved {w : Width} {a : BitVec 12} (v : Word) (s : State) (h : locate w a = .reserved) :
    hostAccess (.write w a v) s = .next (ignoreWrite s) := by
  simp [hostAccess, h]

/-- Settles O59, range by range of the address space. -/
theorem addressMap : Obligations.AddressMap := by
  intro s w a v
  have hbytes := width_bytes_pos w
  have notReg : w ≠ .word ∨ 0x020 ≤ a.toNat ∨ a.toNat % 4 ≠ 0 → w = .word → ∀ r, a ≠ regAddr r := by
    rintro h hw r rfl
    have := regAddr_isAligned r
    rcases h with h | h
    · exact h hw
    · omega
  refine ⟨fun hlow hbad => ?_, fun hlow hw haligned => ?_, fun hlo hhi hw => ?_, fun hedge => ?_, fun hres => ?_⟩
  · exact hostAccess_outside v s (locate_outside (notReg (hbad.imp_right .inr)) (fun _ => .inl (by omega))
      (mt inReserved_iff.mp (by omega)))
  · obtain ⟨r, rfl⟩ := exists_regAddr_of_aligned hlow haligned
    subst hw
    rw [hostAccess_read_reg]
    obtain ⟨x, h | ⟨hbusy, h⟩⟩ := readReg_cases r s <;> rw [h]
    · exact ⟨x, s.draws, rfl, fun _ => rfl⟩
    · exact ⟨x, s.draws + 1, rfl, fun hidle => absurd hidle ((busy_iff s).mp hbusy)⟩
  · exact hostAccess_outside v s (locate_outside (notReg (.inr (.inl (by omega)))) (absurd · hw)
      (mt inReserved_iff.mp (by omega)))
  · exact hostAccess_outside v s (locate_outside (notReg (.inr (.inl (by omega)))) (fun _ => by omega)
      (mt inReserved_iff.mp (by omega)))
  · have hloc : locate w a = .reserved := locate_of_inReserved (inReserved_iff.mpr hres)
    rw [hostAccess_write_reserved v s hloc]
    refine ⟨fun hidle => ?_, fun hbusy => ?_, hostAccess_read_reserved s hloc⟩
    · rw [ignoreWrite_of_idle hidle]
    · rw [ignoreWrite_of_busy hbusy]
      rfl

end Sys2Proof.Proofs

/-!
The encoding of commands: the fields of a command word, its decoder by OP and arguments, the encoder's word, and the reserved OP
values (30_encoding.md R100 to R105).
-/
namespace Sys2Proof.Proofs

open Sys2Proof.Machine Sys2Proof.Laws

/-! ## The fields of a command word (30_encoding.md R100) -/

theorem a8Field_eq (w : Word) : a8Field w = w.toNat / 2 ^ 8 % 2 ^ 8 := by
  simp [a8Field, Nat.shiftRight_eq_div_pow]

theorem a16Field_eq (w : Word) : a16Field w = w.toNat / 2 ^ 16 := by
  have hw := w.isLt
  simp only [a16Field, BitVec.extractLsb'_toNat, Nat.shiftRight_eq_div_pow]
  omega

theorem opField_eq_iff {w : Word} {op : Byte} : opField w = op ↔ w.toNat % 256 = op.toNat := by
  rw [← opField_toNat, BitVec.toNat_inj]

theorem opField_eq_ofNat (w : Word) : opField w = BitVec.ofNat 8 (w.toNat % 256) := by
  rw [← opField_toNat, BitVec.ofNat_toNat, BitVec.setWidth_eq]

/-! ## Decoding by OP and arguments (30_encoding.md R101 to R103) -/

/-- An operation with its argument taken from A8 or A16; one without an argument stays as it is (R101). -/
def withArgs (a8 a16 : Nat) : Instr → Instr
  | .crcByte _ => .crcByte a8
  | .decSnap _ => .decSnap a16
  | .decArca _ => .decArca a16
  | .decArcb _ => .decArcb a16
  | .decArc _ => .decArc a16
  | .decHdr _ => .decHdr a16
  | .decPage _ => .decPage a16
  | .setper _ => .setper a16
  | i => i

theorem withArgs_own (i : Instr) : withArgs i.a8 i.a16 i = i := by cases i <;> rfl

/-- The list holds the OP values of the operations with an argument (R102). -/
theorem withArgs_of_noArgument {i : Instr} (a8 a16 : Nat)
    (h : i.opcode.toNat ∉ [0x02, 0x10, 0x11, 0x12, 0x13, 0x14, 0x15, 0x21]) : withArgs a8 a16 i = i := by
  cases i
  case crcByte | decSnap | decArca | decArcb | decArc | decHdr | decPage | setper => simp [Instr.opcode] at h
  all_goals rfl

/-- OP selects the operation, and its argument is the field of the word that the format gives it. -/
theorem decodeWord_of_opField {w : Word} {i : Instr} (h : opField w = i.opcode) :
    decodeWord w = .ok (withArgs (a8Field w) (a16Field w) i) := by
  unfold decodeWord
  rw [h]
  cases i <;> rfl

theorem decodeWord_eq_error {w : Word} {r : DecodeError} (h : decodeWord w = .error r) : r = .reservedOp (opField w) := by
  unfold decodeWord at h
  split at h <;> cases h
  rfl

/-- An OP value no operation has is refused by name. -/
theorem decodeWord_of_reserved {w : Word} (h : ∀ i : Instr, opField w ≠ i.opcode) :
    decodeWord w = .error (.reservedOp (opField w)) := by
  cases hdec : decodeWord w with
  | ok i => exact absurd (opcode_of_decodeWord hdec).symm (h i)
  | error r => rw [decodeWord_eq_error hdec]

/-- Words with one OP decode alike when no operation with that OP has an argument. -/
theorem decodeWord_congr {w w' : Word} (h : opField w' = opField w)
    (hargs : (opField w).toNat ∉ [0x02, 0x10, 0x11, 0x12, 0x13, 0x14, 0x15, 0x21]) : decodeWord w' = decodeWord w := by
  by_cases hop : ∃ i : Instr, opField w = i.opcode
  · obtain ⟨i, hi⟩ := hop
    rw [hi] at hargs
    rw [decodeWord_of_opField hi, decodeWord_of_opField (h.trans hi), withArgs_of_noArgument _ _ hargs,
      withArgs_of_noArgument _ _ hargs]
  · have hres : ∀ i : Instr, opField w ≠ i.opcode := fun i hi => hop ⟨i, hi⟩
    rw [decodeWord_of_reserved hres, decodeWord_of_reserved (h ▸ hres), h]

/-- Settles O2: each word with an argument by its OP, the others because their operation ignores both fields. -/
theorem operandFields : Obligations.OperandFields := by
  intro w
  have decodes (i : Instr) (h : w.toNat % 256 = i.opcode.toNat) :
      decodeWord w = .ok (withArgs (w.toNat / 2 ^ 8 % 2 ^ 8) (w.toNat / 2 ^ 16) i) := by
    rw [decodeWord_of_opField (opField_eq_iff.mpr h), a8Field_eq, a16Field_eq]
  refine ⟨decodes (.crcByte 0), decodes (.decSnap 0), decodes (.decArca 0), decodes (.decArcb 0), decodes (.decArc 0),
    decodes (.decHdr 0), decodes (.decPage 0), decodes (.setper 0), fun w' hargs hop => ?_⟩
  rw [← opField_toNat] at hargs
  exact decodeWord_congr (opField_eq_iff.mpr (hop.trans (opField_toNat w).symm)) hargs

/-- Settles O4: the decoder evaluated on each word. -/
theorem wordsDecode : Obligations.WordsDecode := by
  refine ⟨?_, ?_, ?_, ?_, ?_, ?_, ?_, ?_, ?_⟩ <;> decide

/-! ## The encoder (30_encoding.md R105) -/

theorem args_lt_of_wf {i : Instr} (h : i.wf = true) : i.a8 < 2 ^ 8 ∧ i.a16 < 2 ^ 16 := by
  cases i
  case crcByte | decSnap | decArca | decArcb | decArc | decHdr | decPage | setper =>
    simpa [Instr.a8, Instr.a16, Instr.wf] using h
  all_goals decide

/-- Fields that fit their places are added without overlap. -/
theorem encode_toNat {i : Instr} (h : i.wf = true) :
    (encode i).toNat = i.a16 * 2 ^ 16 + i.a8 * 2 ^ 8 + i.opcode.toNat := by
  obtain ⟨h8, h16⟩ := args_lt_of_wf h
  have hop : i.opcode.toNat < 2 ^ 8 := i.opcode.isLt
  have hlow : i.a8 <<< 8 ||| i.opcode.toNat = i.a8 * 2 ^ 8 + i.opcode.toNat := by
    rw [← Nat.shiftLeft_add_eq_or_of_lt hop, Nat.shiftLeft_eq]
  calc (encode i).toNat
    _ = i.a16 <<< 16 ||| (i.a8 <<< 8 ||| i.opcode.toNat) := by
      simp (disch := omega) only [encode, BitVec.toNat_or, BitVec.toNat_shiftLeft, BitVec.toNat_ofNat, BitVec.toNat_setWidth,
        Nat.mod_eq_of_lt, Nat.or_assoc]
    _ = i.a16 * 2 ^ 16 + (i.a8 * 2 ^ 8 + i.opcode.toNat) := by
      rw [hlow, ← Nat.shiftLeft_add_eq_or_of_lt (by omega), Nat.shiftLeft_eq]
    _ = i.a16 * 2 ^ 16 + i.a8 * 2 ^ 8 + i.opcode.toNat := (Nat.add_assoc ..).symm

/-- Settles O1: the word's three fields are the operation's OP and arguments, and OP selects it. -/
theorem encodeDecodeRoundTrip : Obligations.EncodeDecodeRoundTrip := by
  intro i hwf
  obtain ⟨h8, h16⟩ := args_lt_of_wf hwf
  have hword := encode_toNat hwf
  have hop := i.opcode.isLt
  have hopField : opField (encode i) = i.opcode := opField_eq_iff.mpr (by omega)
  have ha8 : a8Field (encode i) = i.a8 := by rw [a8Field_eq]; omega
  have ha16 : a16Field (encode i) = i.a16 := by rw [a16Field_eq]; omega
  exact ⟨hword, by rw [decodeWord_of_opField hopField, ha8, ha16, withArgs_own]⟩

/-! ## Reserved OP values (30_encoding.md R103) -/

theorem opcode_range (i : Instr) :
    i.opcode.toNat ≤ 0x05 ∨ (0x10 ≤ i.opcode.toNat ∧ i.opcode.toNat ≤ 0x15) ∨
      (0x20 ≤ i.opcode.toNat ∧ i.opcode.toNat ≤ 0x25) ∨ i.opcode.toNat = 0x3F := by
  cases i <;> simp [Instr.opcode]

/-- Settles O3: no operation has its OP in the reserved ranges, so acceptance is followed by completion alone. -/
theorem reservedOpIllegal : Obligations.ReservedOpIllegal := by
  intro s w hidle hop
  have hres (i : Instr) : opField w ≠ i.opcode := fun h => by
    have := opField_eq_iff.mp h
    have := opcode_range i
    omega
  have hlastop : w.extractLsb' 0 8 = BitVec.ofNat 8 (w.toNat % 256) := opField_eq_ofNat w
  calc hostAccess (.write .word 0x000 w) s
    _ = writeCmd w s := hostAccess_write_reg .cmd w s
    _ = .next (finish .illegalOp (accept w s)) := writeCmd_reserved hidle (decodeWord_of_reserved hres)
    _ = _ := by
      rw [finish_of_idle (s := accept w s) _ hidle, accept, hlastop]

end Sys2Proof.Proofs

/-!
The CRC as a shift register: a byte's step is eight bit steps of the accumulator with the byte in its upper half. From that
equation a frame with its own CRC leaves 0, and under a polynomial with a constant term two frames of which one byte differs
have different CRCs (40_crc.md R130, R131, R136). Then the operations of the CRC family (R133 to R138).
-/
namespace Sys2Proof.Proofs

open Sys2Proof.Machine Sys2Proof.Laws

/-! ## Bit steps (40_crc.md R130) -/

theorem crcBit_of_msb_false (poly : Half) {c : Half} (h : c.msb = false) : crcBit poly c = c <<< 1 := by
  simp [crcBit, h]

theorem crcBit_xor (poly x y : Half) : crcBit poly (x ^^^ y) = crcBit poly x ^^^ crcBit poly y := by
  have hleft : (x <<< 1 ^^^ y <<< 1) ^^^ poly = (x <<< 1 ^^^ poly) ^^^ y <<< 1 := by ac_rfl
  have hboth : (x <<< 1 ^^^ poly) ^^^ (y <<< 1 ^^^ poly) = (x <<< 1 ^^^ y <<< 1) ^^^ (poly ^^^ poly) := by ac_rfl
  unfold crcBit
  rw [BitVec.msb_xor, BitVec.shiftLeft_xor_distrib]
  cases x.msb <;> cases y.msb
  · rfl
  · exact BitVec.xor_assoc ..
  · exact hleft
  · exact (hboth.trans (by simp)).symm

theorem crcBits_xor (poly x y : Half) (n : Nat) :
    (crcBit poly)^[n] (x ^^^ y) = (crcBit poly)^[n] x ^^^ (crcBit poly)^[n] y := by
  induction n generalizing x y with
  | zero => rfl
  | succ n ih => simp only [Function.iterate_succ_apply, crcBit_xor, ih]

theorem shiftLeft_one_toNat {c : Half} (h : c.msb = false) : (c <<< 1).toNat = c.toNat * 2 := by
  have hlt := BitVec.msb_eq_false_iff_two_mul_lt.mp h
  rw [BitVec.toNat_shiftLeft, Nat.shiftLeft_eq, pow_one, Nat.mod_eq_of_lt (by omega)]

/-- Bit steps only shift as long as no bit set leaves the register. -/
theorem crcBits_of_lt (poly : Half) {n : Nat} {c : Half} (h : c.toNat * 2 ^ n < 2 ^ 16) :
    (crcBit poly)^[n] c = c <<< n := by
  induction n generalizing c with
  | zero => simp
  | succ n ih =>
    rw [pow_succ', ← Nat.mul_assoc] at h
    have htwice : c.toNat * 2 < 2 ^ 16 := Nat.lt_of_le_of_lt (Nat.le_mul_of_pos_right _ (Nat.two_pow_pos n)) h
    have hmsb : c.msb = false := BitVec.msb_eq_false_iff_two_mul_lt.mpr (by omega)
    rw [← shiftLeft_one_toNat hmsb] at h
    rw [Function.iterate_succ_apply, crcBit_of_msb_false poly hmsb, ih h, Nat.add_comm, BitVec.shiftLeft_add]

/-- Bit 0 of a bit step's result tells which bit left the register, when the polynomial has a constant term. -/
theorem crcBit_lsb {poly : Half} (hodd : poly.getLsbD 0 = true) (c : Half) : (crcBit poly c).getLsbD 0 = c.msb := by
  unfold crcBit
  cases c.msb <;> simp [hodd]

theorem crcBit_injective {poly : Half} (hodd : poly.getLsbD 0 = true) : Function.Injective (crcBit poly) := by
  intro x y h
  have hzero : crcBit poly (x ^^^ y) = 0 := by rw [crcBit_xor, h, BitVec.xor_self]; rfl
  have hmsb : (x ^^^ y).msb = false := by rw [← crcBit_lsb hodd, hzero]; rfl
  have hnat : (x ^^^ y).toNat * 2 = 0 := by
    rw [← shiftLeft_one_toNat hmsb, ← crcBit_of_msb_false poly hmsb, hzero]; rfl
  exact BitVec.xor_eq_zero_iff.mp (BitVec.eq_of_toNat_eq (by simpa using hnat))

/-! ## Byte steps (40_crc.md R131) -/

theorem crcTable_eq_bits (poly : Half) (i : Byte) : crcTable poly i = (crcBit poly)^[8] (i.setWidth 16 <<< 8) := rfl

/-- The byte enters the accumulator's upper half, then eight bit steps follow. -/
theorem crcStep_eq_bits (poly acc : Half) (b : Byte) :
    crcStep poly acc b = (crcBit poly)^[8] (acc ^^^ (b.setWidth 16 <<< 8)) := by
  have hlow : (acc &&& 0x00FF).toNat * 2 ^ 8 < 2 ^ 16 := by
    have hbyte : (acc &&& 0x00FF).toNat ≤ 0x00FF := by simpa using Nat.and_le_right (n := acc.toNat) (m := 0xFF)
    omega
  have hsplit : acc ^^^ (b.setWidth 16 <<< 8) =
      (((acc >>> 8).setWidth 8 ^^^ b).setWidth 16 <<< 8) ^^^ (acc &&& 0x00FF) := by
    ext i hi
    interval_cases i <;> simp
  rw [crcStep, crcTable_eq_bits, ← crcBits_of_lt poly hlow, ← crcBits_xor, hsplit]

/-- Two accumulators that differ stay different under the same byte, and one accumulator under different bytes. -/
theorem crcStep_inj {poly : Half} (hodd : poly.getLsbD 0 = true) {acc acc' : Half} {b b' : Byte} :
    crcStep poly acc b = crcStep poly acc' b' ↔ acc ^^^ (b.setWidth 16 <<< 8) = acc' ^^^ (b'.setWidth 16 <<< 8) := by
  rw [crcStep_eq_bits, crcStep_eq_bits, ((crcBit_injective hodd).iterate 8).eq_iff]

theorem crcFrom_injective {poly : Half} (hodd : poly.getLsbD 0 = true) (bs : List Byte) :
    Function.Injective (crcFrom poly · bs) := by
  induction bs with
  | nil => exact Function.injective_id
  | cons b bs ih =>
    intro acc acc' h
    have hstep : crcStep poly acc b = crcStep poly acc' b := ih h
    exact (BitVec.xor_left_inj _).mp ((crcStep_inj hodd).mp hstep)

theorem crcFrom_ne_of_byte_ne {poly : Half} (hodd : poly.getLsbD 0 = true) (acc : Half) (xs ys : List Byte) {b b' : Byte}
    (hne : b ≠ b') : crcFrom poly acc (xs ++ b :: ys) ≠ crcFrom poly acc (xs ++ b' :: ys) := by
  rw [crcFrom_append, crcFrom_append, crcFrom_cons, crcFrom_cons]
  intro h
  have hbytes := (BitVec.xor_right_inj _).mp ((crcStep_inj hodd).mp (crcFrom_injective hodd ys h))
  exact hne (by bv_omega)

/-! ## Frames (40_crc.md R132, R136) -/

theorem crcStep_zero (poly : Half) : crcStep poly 0 0 = 0 := by
  rw [crcStep_eq_bits, crcBits_of_lt poly (by decide)]
  rfl

theorem crcFrom_zeros (poly : Half) (n : Nat) : crcFrom poly 0 (List.replicate n 0) = 0 := by
  induction n with
  | zero => rfl
  | succ n ih => rw [List.replicate_succ, crcFrom_cons, crcStep_zero, ih]

theorem be16bytes_length (v : Half) : (be16bytes v).length = 2 := rfl

/-- An accumulator followed by its own bytes leaves nothing: the first shifts its lower half up, the second cancels that. -/
theorem crcFrom_be16bytes_self (poly acc : Half) : crcFrom poly acc (be16bytes acc) = 0 := by
  have hupper : acc ^^^ ((acc.extractLsb' 8 8).setWidth 16 <<< 8) = (acc.extractLsb' 0 8).setWidth 16 := by
    ext i hi
    interval_cases i <;> simp
  have hlow : ((acc.extractLsb' 0 8).setWidth 16 : Half).toNat * 2 ^ 8 < 2 ^ 16 := by
    have hbyte := (acc.extractLsb' 0 8).isLt
    rw [BitVec.toNat_setWidth]
    omega
  have hfirst : crcStep poly acc (acc.extractLsb' 8 8) = (acc.extractLsb' 0 8).setWidth 16 <<< 8 := by
    rw [crcStep_eq_bits, hupper, crcBits_of_lt poly hlow]
  rw [be16bytes, crcFrom_cons, crcFrom_cons, crcFrom_nil, hfirst, crcStep_eq_bits, BitVec.xor_self,
    crcBits_of_lt poly (by decide)]
  rfl

theorem crc_append_be16bytes (c : Config) (m : List Byte) : crc c (m ++ be16bytes (crc c m)) = 0 := by
  rw [crc, crcFrom_append]
  exact crcFrom_be16bytes_self c.poly (crc c m)

/-- The changed byte differs, and what comes before and after it is the same. -/
theorem crc_flipBit_ne {f : List Byte} {k : Nat} (hk : k < 8 * f.length) : crc cfg (flipBit f k) ≠ crc cfg f := by
  have hi : k / 8 < f.length := by omega
  have hmask : (1#8 <<< (k % 8)) ≠ 0#8 := by
    have hbit : k % 8 < 8 := by omega
    interval_cases k % 8 <;> decide
  have hbyte : f[k / 8] ^^^ (1#8 <<< (k % 8)) ≠ f[k / 8] := by
    simpa using hmask
  have hsplit : f = f.take (k / 8) ++ f[k / 8] :: f.drop (k / 8 + 1) := by
    rw [List.getElem_cons_drop, List.take_append_drop]
  rw [flipBit, List.modify_eq_take_cons_drop hi]
  conv_rhs => rw [hsplit]
  exact crcFrom_ne_of_byte_ne (by decide) cfg.crcInit _ _ hbyte

/-- Settles O13: the residue of the frame's own bytes, of zeros, and the difference a changed byte makes. -/
theorem frameResidue : Obligations.FrameResidue := by
  refine ⟨crc_append_be16bytes, fun n hn => ?_, fun f k hf hk => ?_⟩
  · exact (verify_iff cfg _).mpr ⟨by simpa using hn.ne', crcFrom_zeros _ n⟩
  · have hcrc : crc cfg f = 0 := ((verify_iff cfg f).mp hf).2
    rw [Bool.eq_false_iff, ne_eq, verify_iff]
    exact fun hflip => crc_flipBit_ne hk (hflip.2.trans hcrc.symm)

/-! ## The operations (40_crc.md R133 to R138) -/

/-- Settles O14: only ACC is written before the completion. -/
theorem crcClrRule : Obligations.CrcClrRule := fun s hidle =>
  congrArg Host.Outcome.next (finish_of_idle (s := { s with acc := cfg.crcInit }) .ok hidle)

theorem exec_crcByte {s : State} (b : Nat) (hidle : s.task = none) :
    exec (.crcByte b) s = .next { s with
      acc := crcStep cfg.poly s.acc (BitVec.ofNat 8 b), code := .ok, done := true, abortReq := false } :=
  congrArg Host.Outcome.next
    (finish_of_idle (s := { s with acc := crcStep cfg.poly s.acc (BitVec.ofNat 8 b) }) .ok hidle)

/-- After a completed command, CRC_BYTE of every byte of a sequence writes ACC and nothing else. -/
theorem execSeq_crcByte (bs : List Byte) {s : State} (hidle : s.task = none) (habort : s.abortReq = false)
    (hcode : s.code = .ok) (hdone : s.done = true) :
    execSeq (bs.map fun b => .crcByte b.toNat) s = .next { s with acc := crcFrom cfg.poly s.acc bs } := by
  induction bs generalizing s with
  | nil => rfl
  | cons b bs ih =>
    have hstep : exec (.crcByte b.toNat) s = .next { s with acc := crcStep cfg.poly s.acc b } := by
      rw [exec_crcByte _ hidle, BitVec.ofNat_toNat, BitVec.setWidth_eq, ← habort, ← hcode, ← hdone]
    simp only [List.map_cons, execSeq, hstep]
    exact ih (s := { s with acc := crcStep cfg.poly s.acc b }) hidle habort hcode hdone

/-- Settles O15, the byte sequences by induction on the list. -/
theorem crcByteRule : Obligations.CrcByteRule := by
  refine ⟨fun s b hidle _ => exec_crcByte b hidle, fun s bs hidle hacc habort hcode hdone => ?_⟩
  rw [execSeq_crcByte bs hidle habort hcode hdone, execSeq_crcByte _ hidle habort hcode hdone, hacc]
  refine ⟨rfl, ?_⟩
  have hresidue : crcFrom cfg.poly 0 (bs ++ be16bytes (crc cfg bs)) = 0 := crc_append_be16bytes cfg bs
  rw [hresidue]

/-- Settles O16: the bytes the buffer holds are the ones MemRead gives. -/
theorem crcBufRule : Obligations.CrcBufRule := by
  intro s bs hidle hlen hbytes
  change withBytes s 0 s.len.toNat _ = _
  rw [← hlen, withBytes_of_holds _ hbytes, finish_of_idle (s := { s with acc := crc cfg bs }) .ok hidle]

/-- Settles O17: as CRC_BUF, with VALID the model's flag on the frame's length and CRC. -/
theorem verifyRule : Obligations.VerifyRule := by
  intro s bs hidle hlen hbytes
  have hvalid : validFlag s.lenNat (crc cfg bs) = decide (0 < bs.length ∧ crc cfg bs = 0x0000) := by
    rw [validFlag, State.lenNat, ← hlen, Bool.decide_and, Bool.beq_eq_decide_eq]
  change withBytes s 0 s.len.toNat _ = _
  rw [← hlen, withBytes_of_holds _ hbytes, hvalid,
    finish_of_idle (s := { s with acc := crc cfg bs, valid := decide (0 < bs.length ∧ crc cfg bs = 0x0000) }) .ok hidle]

/-- The state CRC_APPEND leaves when the frame `bs` has room for its CRC (40_crc.md R138). -/
def appended (s : State) (bs : List Byte) : State :=
  { s with
    acc := crc cfg bs
    fb := memWrite s.fb s.len.toNat (be16bytes (crc cfg bs))
    len := BitVec.ofNat 10 (s.len.toNat + 2)
    code := .ok
    done := true
    abortReq := false }

theorem exec_crcAppend_of_overflow {s : State} (hidle : s.task = none) (hfull : 512 < s.len.toNat + 2) :
    exec .crcAppend s = .next { s with code := .bufOverflow, done := true, abortReq := false } := by
  change (if s.len.toNat + 2 > 512 then _ else _) = _
  rw [if_pos hfull, finish_of_idle _ hidle]

theorem exec_crcAppend_of_fits {s : State} {bs : List Byte} (hidle : s.task = none) (hlen : bs.length = s.len.toNat)
    (hbytes : FbHolds s 0 bs) (hfit : s.len.toNat + 2 ≤ 512) : exec .crcAppend s = .next (appended s bs) := by
  change (if s.len.toNat + 2 > 512 then _ else withBytes s 0 s.len.toNat _) = _
  rw [if_neg (by omega), ← hlen, withBytes_of_holds _ hbytes]
  exact congrArg Host.Outcome.next (finish_of_idle _ hidle)

theorem read_appended_outside {s : State} {bs : List Byte} {a : Nat} (h : a ≠ s.len.toNat) (h' : a ≠ s.len.toNat + 1) :
    Memory.read (appended s bs).fb a = Memory.read s.fb a := by
  rw [appended, read_memWrite, if_neg (by rw [be16bytes_length]; omega)]

theorem read_appended_crc {s : State} {bs : List Byte} {i : Nat} (h : i < 2) :
    Memory.read (appended s bs).fb (s.len.toNat + i) = (be16bytes (crc cfg bs))[i]? := by
  rw [appended, read_memWrite, if_pos (by rw [be16bytes_length]; omega), Nat.add_sub_cancel_left]

/-- The buffer holds the frame with its CRC behind it. -/
theorem appended_fbHolds {s : State} {bs : List Byte} (hlen : bs.length = s.len.toNat) (hbytes : FbHolds s 0 bs) :
    FbHolds (appended s bs) 0 (bs ++ be16bytes (crc cfg bs)) := by
  intro i hi
  rw [List.length_append, be16bytes_length] at hi
  rw [Nat.zero_add]
  by_cases hbody : i < bs.length
  · rw [read_appended_outside (by omega) (by omega), List.getElem?_append_left hbody, ← hbytes i hbody, Nat.zero_add]
  · rw [List.getElem?_append_right (by omega), ← read_appended_crc (s := s) (by omega), hlen,
      Nat.add_sub_cancel' (by omega)]

theorem appended_len {s : State} {bs : List Byte} (hfit : s.len.toNat + 2 ≤ 512) :
    (appended s bs).len.toNat = s.len.toNat + 2 := by
  rw [appended, BitVec.toNat_ofNat, Nat.mod_eq_of_lt (by omega)]

/-- Settles O18; the VERIFY is O17 on the appended frame, whose CRC is 0. -/
theorem crcAppendRule : Obligations.CrcAppendRule := by
  intro s hidle
  refine ⟨exec_crcAppend_of_overflow hidle, fun bs hlen hbytes hfit => ?_⟩
  have hlen' : (bs ++ be16bytes (crc cfg bs)).length = (appended s bs).len.toNat := by
    rw [appended_len hfit, List.length_append, hlen, be16bytes_length]
  refine ⟨appended s bs, _, exec_crcAppend_of_fits hidle hlen hbytes hfit, rfl, read_appended_crc (i := 0) (by decide),
    read_appended_crc (i := 1) (by decide), fun a => read_appended_outside,
    verifyRule _ _ hidle hlen' (appended_fbHolds hlen hbytes), ?_⟩
  exact decide_eq_true ⟨by rw [hlen', appended_len hfit]; omega, crc_append_be16bytes cfg bs⟩

end Sys2Proof.Proofs

/-!
A running operation does not read ACC, FB, VALID and LEN: every procedure of the sequencer, run on a state with other
contents there, leaves what it would have left, with those contents (40_crc.md R139, 10_state.md R34, 20_memory.md R73).
-/
namespace Sys2Proof.Proofs

open Sys2Proof.Machine Sys2Proof.Laws

/-- Contents of ACC, FB, VALID and LEN. -/
structure HostData where
  acc : Half
  fb : Memory
  valid : Bool
  len : BitVec 10

/-- The state with other contents of ACC, FB, VALID and LEN. -/
def withHost (d : HostData) (s : State) : State :=
  { s with acc := d.acc, fb := d.fb, valid := d.valid, len := d.len }

theorem withHost_task (d : HostData) (s : State) : (withHost d s).task = s.task := rfl

/-! ## The procedures, from their innermost ends outwards -/

section
variable (d : HostData) (c : Config)

theorem enter_withHost (p : Point) (t : Task) (s : State) : enter p t (withHost d s) = withHost d (enter p t s) := by
  rcases enter_cases p t s with ⟨habort, h⟩ | ⟨habort, h⟩
  · rw [h, enter_of_no_abort (s := withHost d s) habort]
    rfl
  · rw [h, enter_of_abort (s := withHost d s) habort]
    rfl

theorem selectNewest_withHost (l : List ArcEntry) (s : State) :
    selectNewest l (withHost d s) = withHost d (selectNewest l s) := by
  have hwm : newest ((withHost d s).wmDate, (withHost d s).wmTime) l = newest (s.wmDate, s.wmTime) l := rfl
  unfold selectNewest
  rw [hwm]
  cases newest (s.wmDate, s.wmTime) l <;> rfl

theorem receive_withHost (n : Nat) (m : Millis) (s : State) :
    receive n m (withHost d s) = ((receive n m s).1, withHost d (receive n m s).2) := by
  have hanswers : (withHost d s).answers = s.answers := rfl
  unfold receive nextAnswer
  rw [hanswers]
  cases s.answers <;> rfl

theorem startWake_withHost (t : Task) (s : State) : startWake t (withHost d s) = withHost d (startWake t s) :=
  enter_withHost d _ _ { s with seq := .wake }

theorem startSend_withHost (t : Task) (s : State) : startSend t (withHost d s) = withHost d (startSend t s) :=
  enter_withHost d _ _ { s with seq := .send }

theorem startAttempt_withHost (t : Task) (s : State) : startAttempt t (withHost d s) = withHost d (startAttempt t s) :=
  startWake_withHost d _ (clearProg s)

theorem startSnapshotRead_withHost (t : Task) (s : State) :
    startSnapshotRead t (withHost d s) = withHost d (startSnapshotRead t s) :=
  enter_withHost d _ _ { s with seq := .dataRead }

theorem startPause_withHost (p : PausePoint) (t : Task) (s : State) :
    startPause p t (withHost d s) = withHost d (startPause p t s) :=
  enter_withHost d _ _ { s with seq := .pause }

theorem attemptDone_withHost (t : Task) (r : Attempt) (s : State) :
    attemptDone c t r (withHost d s) = withHost d (attemptDone c t r s) := by
  unfold attemptDone
  cases r with
  | unreachable => rfl
  | list l =>
    cases t.op with
    | pollArc => exact congrArg (finish .ok) (selectNewest_withHost d l { s with rlist := l })
    | _ => rfl
  | noResult =>
    cases t.op with
    | pollArc =>
      dsimp only
      split
      · exact startPause_withHost d _ t s
      · rfl
    | _ => rfl

theorem commandDone_withHost (t : Task) (r : CmdResult) (s : State) :
    commandDone c t r (withHost d s) = withHost d (commandDone c t r s) := by
  unfold commandDone
  split
  · rfl
  · rfl
  · rfl
  · exact startSnapshotRead_withHost d _ s
  · rfl
  · exact enter_withHost d _ _ s
  · exact attemptDone_withHost d c t _ s
  · exact enter_withHost d _ _ s
  · exact attemptDone_withHost d c t _ s

theorem wakeDone_withHost (t : Task) (r : CmdResult) (s : State) :
    wakeDone c t r (withHost d s) = withHost d (wakeDone c t r s) := by
  unfold wakeDone
  split
  · rfl
  · exact startSend_withHost d t s
  · exact commandDone_withHost d c t _ s

theorem pageLoop_withHost (i : Nat) (t : Task) (s : State) :
    pageLoop c i t (withHost d s) = withHost d (pageLoop c i t s) := by
  have hpages : (withHost d s).pages = s.pages := rfl
  unfold pageLoop
  rw [hpages]
  split
  · exact enter_withHost d _ t { s with seq := .pageLoop, pidx := BitVec.ofNat 16 i }
  · exact attemptDone_withHost d c t _ s

theorem afterTx_withHost (t : Task) (p : TxPoint) (s : State) :
    afterTx c t p (withHost d s) = withHost d (afterTx c t p s) := by
  cases p with
  | wake => exact enter_withHost d _ t s
  | send => exact enter_withHost d _ t s
  | watermark => exact enter_withHost d _ t { s with seq := .headerSent }
  | escape => exact attemptDone_withHost d c t .noResult s
  | headerAck => exact pageLoop_withHost d c 0 _ { s with seq := .headerReceived, pages := le16 t.rxbuf 0 }
  | pageAck =>
    exact pageLoop_withHost d c (s.pidx.toNat + 1) _
      { s with rev := (walkPage c t.rxbuf s.pidx.toNat t.offset.toNat (s.rev, t.records)).1 }

theorem afterRx_withHost (t : Task) (p : RxPoint) (a : RxAnswer) (s : State) :
    afterRx c t p a (withHost d s) = withHost d (afterRx c t p a s) := by
  cases p with
  | wake =>
    simp only [afterRx]
    split
    · exact wakeDone_withHost d c t _ s
    · split
      · exact enter_withHost d _ _ s
      · exact wakeDone_withHost d c t _ s
  | confirm =>
    cases a with
    | timeout => exact commandDone_withHost d c t .unreachable s
    | data bs =>
      simp only [afterRx]
      split
      · exact commandDone_withHost d c t _ s
      · split
        · exact enter_withHost d _ _ s
        · exact commandDone_withHost d c t _ s
  | watermarkAck =>
    cases a with
    | timeout => exact attemptDone_withHost d c t .unreachable s
    | data bs =>
      simp only [afterRx]
      split
      · exact enter_withHost d _ _ s
      · exact attemptDone_withHost d c t _ s
  | header =>
    cases a with
    | timeout => exact attemptDone_withHost d c t .unreachable s
    | data bs => simp only [afterRx]; split <;> exact enter_withHost d _ _ s
  | page =>
    cases a with
    | timeout => exact attemptDone_withHost d c t .unreachable s
    | data bs => simp only [afterRx]; split <;> exact enter_withHost d _ _ s
  | snapshot =>
    cases a with
    | timeout => rfl
    | data bs =>
      simp only [afterRx]
      split
      · rfl
      · split
        · exact startPause_withHost d _ _ s
        · rfl

theorem afterPause_withHost (t : Task) (p : PausePoint) (s : State) :
    afterPause t p (withHost d s) = withHost d (afterPause t p s) := by
  cases p with
  | attempt => exact startAttempt_withHost d _ s
  | snapshot => exact startSnapshotRead_withHost d _ s

/-! ## An atomic step and a cancellation -/

theorem txBytesOf_withHost (t : Task) (p : TxPoint) (s : State) :
    txBytesOf c (withHost d s) t p = txBytesOf c s t p := by
  cases p <;> rfl

theorem advance_withHost (s : State) : advance c (withHost d s) = withHost d (advance c s) := by
  unfold advance
  rw [withHost_task]
  cases s.task with
  | none => rfl
  | some t =>
    dsimp only
    cases t.point with
    | tx p =>
      dsimp only
      rw [txBytesOf_withHost]
      exact afterTx_withHost d c t p (transmit _ s)
    | rx p =>
      dsimp only
      rw [receive_withHost]
      exact afterRx_withHost d c _ p _ _
    | pause p => exact afterPause_withHost d t p s

theorem cancel_withHost (s : State) : cancel c (withHost d s) = withHost d (cancel c s) := by
  unfold cancel
  rw [withHost_task]
  cases s.task with
  | none => rfl
  | some t =>
    dsimp only
    cases t.point <;> rfl

end

/-- With no input waiting, the running operation is cancelled or goes on by itself. -/
def ownStep (s : State) : State := if cancelDue s then cancel cfg s else advance cfg s

theorem step_eq_ownStep {s : State} (hin : s.inputs = []) : step s = .next (ownStep s) := by
  unfold ownStep
  split
  case isTrue hdue => exact step_of_cancelDue hdue
  case isFalse hdue => exact step_of_nil (Bool.eq_false_iff.mpr hdue) hin

theorem ownStep_kept (s : State) : Kept s (ownStep s) := by
  unfold ownStep
  split
  · exact cancel_kept cfg s
  · exact advance_kept cfg s

theorem ownStep_withHost (d : HostData) (s : State) : ownStep (withHost d s) = withHost d (ownStep s) := by
  have hdue : cancelDue (withHost d s) = cancelDue s := rfl
  unfold ownStep
  rw [hdue]
  split
  · exact cancel_withHost d cfg s
  · exact advance_withHost d cfg s

/-- Settles O46: the frame is `Kept`, and the two runs agree because every procedure does. -/
theorem sequencerIgnoresHostState : Obligations.SequencerIgnoresHostState := by
  intro s _ hin
  have hkept := ownStep_kept s
  refine ⟨ownStep s, step_eq_ownStep hin, hkept.acc, hkept.fb, hkept.valid, hkept.len, hkept.ovr, hkept.cmd, hkept.lastop,
    fun acc fb valid len => ?_⟩
  have hother : step (withHost ⟨acc, fb, valid, len⟩ s) = .next (withHost ⟨acc, fb, valid, len⟩ (ownStep s)) := by
    rw [step_eq_ownStep (s := withHost _ s) hin, ownStep_withHost]
  exact hother

end Sys2Proof.Proofs

/-!
The values the record codec makes of a byte sequence: the packed stamps and their texts, and every field of the layouts
(41_record_codec.md R160 to R185).
-/
namespace Sys2Proof.Proofs

open Sys2Proof.Machine Sys2Proof.Laws

/-! ## Padded decimal text (00_scope.md R15) -/

theorem padTo_of_le {n : Nat} {text : List Byte} (h : n ≤ text.length) : padTo n text = text := by
  rw [padTo, Nat.sub_eq_zero_of_le h, List.replicate_zero, List.nil_append]

theorem dec_of_lt_hundred {v : Nat} (h : 10 ≤ v) (h' : v < 100) : dec v = [asciiDigit (v / 10), asciiDigit (v % 10)] := by
  rw [dec_of_le h, dec_of_lt (by omega), List.singleton_append]

theorem dec_of_lt_thousand {v : Nat} (h : 100 ≤ v) (h' : v < 1000) :
    dec v = [asciiDigit (v / 100), asciiDigit (v / 10 % 10), asciiDigit (v % 10)] := by
  rw [dec_of_le (by omega), dec_of_lt_hundred (by omega) (by omega), Nat.div_div_eq_div_mul]
  rfl

theorem dec_of_lt_ten_thousand {v : Nat} (h : 1000 ≤ v) (h' : v < 10000) :
    dec v = [asciiDigit (v / 1000), asciiDigit (v / 100 % 10), asciiDigit (v / 10 % 10), asciiDigit (v % 10)] := by
  rw [dec_of_le (by omega), dec_of_lt_thousand (by omega) (by omega), Nat.div_div_eq_div_mul, Nat.div_div_eq_div_mul]
  rfl

theorem pad2_of_lt {v : Nat} (h : v < 100) : pad2 v = [asciiDigit (v / 10), asciiDigit (v % 10)] := by
  by_cases hv : v < 10
  · rw [pad2, dec_of_lt hv, Nat.div_eq_of_lt hv, Nat.mod_eq_of_lt hv]
    rfl
  · rw [pad2, dec_of_lt_hundred (by omega) h, padTo_of_le (Nat.le_refl 2)]

theorem pad2_of_lt_thousand {v : Nat} (h : 100 ≤ v) (h' : v < 1000) :
    pad2 v = [asciiDigit (v / 100), asciiDigit (v / 10 % 10), asciiDigit (v % 10)] := by
  rw [pad2, dec_of_lt_thousand h h', padTo_of_le (by decide : 2 ≤ 3)]

theorem pad4_of_lt {v : Nat} (h : 1000 ≤ v) (h' : v < 10000) :
    pad4 v = [asciiDigit (v / 1000), asciiDigit (v / 100 % 10), asciiDigit (v / 10 % 10), asciiDigit (v % 10)] := by
  rw [pad4, dec_of_lt_ten_thousand h h', padTo_of_le (Nat.le_refl 4)]

/-! ## Stamps (41_record_codec.md R173 to R177) -/

theorem extractLsb'_toNat_eq_div_mod (v : Half) (i n : Nat) : (v.extractLsb' i n).toNat = v.toNat / 2 ^ i % 2 ^ n := by
  rw [BitVec.extractLsb'_toNat, Nat.shiftRight_eq_div_pow]

theorem extractLsb'_zero_toNat (v : Half) (n : Nat) : (v.extractLsb' 0 n).toNat = v.toNat % 2 ^ n := by
  rw [extractLsb'_toNat_eq_div_mod, pow_zero, Nat.div_one]

/-- Settles O20: the bit fields are quotients and remainders, the year's without one because the value has 16 bits. -/
theorem archiveStamps : Obligations.ArchiveStamps := by
  intro v
  have hyear : (v.extractLsb' 9 7).toNat = v.toNat / 512 := by
    rw [extractLsb'_toNat_eq_div_mod]
    omega
  have hmonth : (v.extractLsb' 5 4).toNat = v.toNat / 32 % 16 := extractLsb'_toNat_eq_div_mod v 5 4
  have hday : (v.extractLsb' 0 5).toNat = v.toNat % 32 := extractLsb'_zero_toNat v 5
  exact ⟨by rw [expandDate, hyear, hmonth, hday], rfl⟩

/-- Settles O21: the fields as in `archiveStamps`, each below the bound that fixes the width of its text. -/
theorem stormDateText : Obligations.StormDateText := by
  intro v
  have hyear : (v.extractLsb' 0 7).toNat = v.toNat % 128 := extractLsb'_zero_toNat v 7
  have hday : (v.extractLsb' 7 5).toNat = v.toNat / 128 % 32 := extractLsb'_toNat_eq_div_mod v 7 5
  have hmonth : (v.extractLsb' 12 4).toNat = v.toNat / 4096 := by
    rw [extractLsb'_toNat_eq_div_mod]
    omega
  unfold expandStormDate
  rw [hyear, hday, hmonth]
  dsimp only
  rw [pad4_of_lt (by omega) (by omega), pad2_of_lt (v := v.toNat / 4096) (by omega), pad2_of_lt (by omega)]
  rfl

/-- Settles O22: the hour is below 1000, and below 100 exactly when the value is below 10000. -/
theorem clockText : Obligations.ClockText := by
  intro v
  have hminute : pad2 (v.toNat % 100) = [asciiDigit (v.toNat / 10 % 10), asciiDigit (v.toNat % 10)] := by
    rw [pad2_of_lt (by omega), show v.toNat % 100 / 10 = v.toNat / 10 % 10 by omega,
      show v.toNat % 100 % 10 = v.toNat % 10 by omega]
  have hhour : pad2 (v.toNat / 100) = (if 10000 ≤ v.toNat then [asciiDigit (v.toNat / 10000)] else []) ++
      [asciiDigit (v.toNat / 1000 % 10), asciiDigit (v.toNat / 100 % 10)] := by
    split
    case isTrue hwide =>
      rw [pad2_of_lt_thousand (by omega) (by omega), Nat.div_div_eq_div_mul, Nat.div_div_eq_div_mul]
      rfl
    case isFalse hnarrow =>
      rw [pad2_of_lt (by omega), show v.toNat / 100 / 10 = v.toNat / 1000 % 10 by omega]
      rfl
  rw [expandClock, hhour, hminute]
  simp

/-! ## Layouts (41_record_codec.md R160) -/

theorem decodeLayout_append (signed : Bool) (l l' : Layout) (bs : List Byte) (p : Nat) :
    decodeLayout signed (l ++ l') bs p = decodeLayout signed l bs p ++ decodeLayout signed l' bs (p + l.size) := by
  induction l generalizing p with
  | nil => rfl
  | cons e l ih => rw [List.cons_append, decodeLayout, decodeLayout, ih, List.cons_append, Layout.size, Nat.add_assoc]

/-- Settles O19, as the case of `decodeLayout_append` whose second layout begins with the entry. -/
theorem layoutEntriesTile : Obligations.LayoutEntriesTile := fun signed l l' e bs p =>
  decodeLayout_append signed l (e :: l') bs p

/-! ## Fields (41_record_codec.md R161 to R167, R170 to R178) -/

section
variable (signed : Bool) (f : FieldName) (bs : List Byte) (p : Nat)

theorem ofInt_toNat (v : Half) : BitVec.ofInt 16 v.toNat = v := by
  rw [BitVec.ofInt_natCast, BitVec.ofNat_toNat, BitVec.setWidth_eq]

theorem decodeEntry_adate : decodeEntry signed ⟨f, .u16, .adate⟩ bs p = expandDate (le16 bs p) :=
  congrArg expandDate (ofInt_toNat _)

theorem decodeEntry_atime : decodeEntry signed ⟨f, .u16, .atime⟩ bs p = expandTime (le16 bs p) :=
  congrArg expandTime (ofInt_toNat _)

theorem decodeEntry_sdate : decodeEntry signed ⟨f, .u16, .sdate⟩ bs p = expandStormDate (le16 bs p) :=
  congrArg expandStormDate (ofInt_toNat _)

theorem decodeEntry_hhmm : decodeEntry signed ⟨f, .u16, .hhmm⟩ bs p = expandClock (le16 bs p) :=
  congrArg expandClock (ofInt_toNat _)

/-- The battery voltage in lower terms than the transform's `v * 300 / (512 * 100)`. -/
theorem decodeEntry_batt :
    decodeEntry signed ⟨f, .u16, .batt⟩ bs p = .ratio (mkRat (3 * (le16 bs p).toNat) 512) := by
  have hterms (v : Int) : mkRat (v * 300) (512 * 100) = mkRat (3 * v) 512 := by
    rw [show v * 300 = 3 * v * 100 by ring]
    exact Rat.mkRat_mul_right (by decide)
  exact congrArg Value.ratio (hterms _)

end

/-- Settles O24: the layout unfolds to its entries, each at the sum of the widths before it; the packed fields need the lemmas
above, and every other field is its transform by definition. -/
theorem snapshotFields : Obligations.SnapshotFields := by
  intro bs p
  simp only [decodeSnap, cfg, layoutSnapTable, decodeLayout, List.cons_append, List.nil_append, Kind.width,
    decodeEntry_sdate, decodeEntry_hhmm, decodeEntry_batt]
  rfl

/-- Settles O25: as O24 for the prefix; the tails start where it ends and have no packed field, so they hold by definition. -/
theorem archiveFields : Obligations.ArchiveFields := by
  intro bs p
  refine ⟨?_, rfl, rfl⟩
  simp only [decodePrefix, cfg, layoutPrefixTable, decodeLayout, List.cons_append, List.nil_append,
    decodeEntry_adate, decodeEntry_atime]
  rfl

end Sys2Proof.Proofs

/-!
The decode operations: the frame they share, with what each makes of its input (41_record_codec.md R186 to R192).
-/
namespace Sys2Proof.Proofs

open Sys2Proof.Machine Sys2Proof.Laws

section
variable {s : State} {p size : Nat}

theorem decodeOp_of_short (k : List Byte → State → State) (hidle : s.task = none) (hshort : s.len.toNat < p + size) :
    decodeOp s p size k = .next { s with result := .none, code := .decodeFail, done := true, abortReq := false } := by
  rw [decodeOp_short k hshort, finish_of_idle (s := { s with result := .none }) _ hidle]

/-- A decode operation that writes no register but RESULT; DEC_ARC, which may write REV too, is not one. -/
theorem decodeOp_result (r : List Byte → Result) {bs : List Byte} (hidle : s.task = none) (hfit : p + size ≤ s.len.toNat)
    (hlen : bs.length = size) (hbytes : FbHolds s p bs) :
    decodeOp s p size (fun bs s => { s with result := r bs }) =
      .next { s with result := r bs, code := .ok, done := true, abortReq := false } := by
  subst hlen
  rw [decodeOp_of_holds _ hfit hbytes, finish_of_idle (s := { s with result := r bs }) _ hidle]

end

/-! ## DEC_SNAP, DEC_ARCA, DEC_ARCB and DEC_HDR (R187 to R189, R191) -/

theorem exec_decSnap (p : Nat) (s : State) :
    exec (.decSnap p) s = decodeOp s p 99 fun bs s => { s with result := .snap (decodeSnap cfg bs 0) } := rfl

theorem exec_decArca (p : Nat) (s : State) :
    exec (.decArca p) s = decodeOp s p 52 fun bs s => { s with result := .arc (decodeArc cfg .a bs 0) } := rfl

theorem exec_decArcb (p : Nat) (s : State) :
    exec (.decArcb p) s = decodeOp s p 52 fun bs s => { s with result := .arc (decodeArc cfg .b bs 0) } := rfl

theorem exec_decHdr (p : Nat) (s : State) :
    exec (.decHdr p) s = decodeOp s p 6 fun bs s => { s with result := decodeHdr bs 0 } := rfl

/-- Settles O26: the frame of a decode operation over the snapshot's 99 bytes. -/
theorem decSnapRule : Obligations.DecSnapRule := by
  intro s p hidle
  rw [exec_decSnap]
  exact ⟨decodeOp_of_short _ hidle, fun _ => decodeOp_result (fun bs => .snap (decodeSnap cfg bs 0)) hidle⟩

/-- Settles O27: the frame of a decode operation over a record's 52 bytes, REV outside it. -/
theorem decArcaRule : Obligations.DecArcaRule := by
  intro s p hidle
  rw [exec_decArca]
  exact ⟨decodeOp_of_short _ hidle, fun _ => decodeOp_result (fun bs => .arc (decodeArc cfg .a bs 0)) hidle⟩

/-- Settles O28: as O27, with the other layout. -/
theorem decArcbRule : Obligations.DecArcbRule := by
  intro s p hidle
  rw [exec_decArcb]
  exact ⟨decodeOp_of_short _ hidle, fun _ => decodeOp_result (fun bs => .arc (decodeArc cfg .b bs 0)) hidle⟩

/-- Settles O30: the six bytes are the fields', each pair in its byte order. -/
theorem decHdrRule : Obligations.DecHdrRule := by
  intro s p hidle
  rw [exec_decHdr]
  exact ⟨decodeOp_of_short _ hidle, fun _ _ _ _ _ _ hfit => decodeOp_result (fun bs => decodeHdr bs 0) hidle hfit rfl⟩

/-! ## DEC_ARC (R176, R190) -/

theorem exec_decArc (p : Nat) (s : State) :
    exec (.decArc p) s = decodeOp s p 52 fun bs s =>
      { s with
        rev := probe s.rev (u8 bs 42)
        result := .arc (decodeArc cfg (probe s.rev (u8 bs 42)).layout bs 0) } := rfl

theorem exec_decArc_of_holds {s : State} {p : Nat} {bs : List Byte} (hidle : s.task = none)
    (hfit : p + 52 ≤ s.len.toNat) (hlen : bs.length = 52) (hbytes : FbHolds s p bs) :
    exec (.decArc p) s = .next { s with
      rev := probe s.rev (u8 bs 42), result := .arc (decodeArc cfg (probe s.rev (u8 bs 42)).layout bs 0), code := .ok,
      done := true, abortReq := false } := by
  rw [exec_decArc, ← hlen, decodeOp_of_holds _ (hlen ▸ hfit) hbytes]
  exact congrArg Host.Outcome.next (finish_of_idle _ hidle)

theorem getElem?_eq_some_u8 {bs : List Byte} {o : Nat} (h : o < bs.length) : bs[o]? = some (u8 bs o) := by
  simp [u8, h]

theorem probe_eq_b {rev : Rev} {disc : Byte} (h : rev = .b ∨ (rev = .unknown ∧ disc = 0)) : probe rev disc = .b := by
  obtain rfl | ⟨rfl, rfl⟩ := h <;> rfl

theorem probe_eq_a {rev : Rev} {disc : Byte} (h : rev = .a ∨ (rev = .unknown ∧ disc ≠ 0)) : probe rev disc = .a := by
  obtain rfl | ⟨rfl, hdisc⟩ := h
  · rfl
  · exact if_neg hdisc

/-- Settles O29: the flag the probe gives selects the layout. -/
theorem decArcRule : Obligations.DecArcRule := by
  intro s p hidle
  refine ⟨?_, fun bs hfit hlen hbytes => ?_⟩
  · rw [exec_decArc]
    exact decodeOp_of_short _ hidle
  have hdisc : bs[42]? = some (u8 bs 42) := getElem?_eq_some_u8 (by omega)
  rw [exec_decArc_of_holds hidle hfit hlen hbytes, hdisc, ne_eq, Option.some_inj]
  exact ⟨fun h => by rw [probe_eq_b h]; rfl, fun h => by rw [probe_eq_a h]; rfl⟩

/-! ## DEC_PAGE (R185, R192) -/

theorem u8_append_right (xs ys : List Byte) (o : Nat) : u8 (xs ++ ys) (xs.length + o) = u8 ys o := by
  rw [u8, u8, List.getD_append_right _ _ _ _ (Nat.le_add_right ..), Nat.add_sub_cancel_left]

theorem be16_append_pair (xs : List Byte) (hi lo : Byte) : be16 (xs ++ [hi, lo]) xs.length = hi ++ lo := by
  have hhi : u8 (xs ++ [hi, lo]) xs.length = hi := u8_append_right xs [hi, lo] 0
  have hlo : u8 (xs ++ [hi, lo]) (xs.length + 1) = lo := u8_append_right xs [hi, lo] 1
  rw [be16, hhi, hlo]

theorem slice_append_middle (xs ys zs : List Byte) : slice (xs ++ (ys ++ zs)) xs.length ys.length = ys := by
  rw [slice, List.drop_left, List.take_left]

/-- The page's fields are its parts; each starts where the parts before it end. -/
theorem decodePage_append (b : Byte) {blob padding : List Byte} (hi lo : Byte) (hblob : blob.length = 260)
    (hpadding : padding.length = 4) :
    decodePage cfg (b :: (blob ++ padding ++ [hi, lo])) 0 = .page b blob padding (hi ++ lo) := by
  have hblobAt : slice (b :: (blob ++ padding ++ [hi, lo])) 1 260 = blob := by
    simpa [hblob] using slice_append_middle [b] blob (padding ++ [hi, lo])
  have hpaddingAt : slice (b :: (blob ++ padding ++ [hi, lo])) 261 4 = padding := by
    simpa [hblob, hpadding] using slice_append_middle (b :: blob) padding [hi, lo]
  have hcrcAt : be16 (b :: (blob ++ padding ++ [hi, lo])) 265 = hi ++ lo := by
    simpa [hblob, hpadding] using be16_append_pair (b :: (blob ++ padding)) hi lo
  calc decodePage cfg (b :: (blob ++ padding ++ [hi, lo])) 0
      = .page b (slice (b :: (blob ++ padding ++ [hi, lo])) 1 260) (slice (b :: (blob ++ padding ++ [hi, lo])) 261 4)
          (be16 (b :: (blob ++ padding ++ [hi, lo])) 265) := rfl
    _ = .page b blob padding (hi ++ lo) := by rw [hblobAt, hpaddingAt, hcrcAt]

theorem exec_decPage (p : Nat) (s : State) :
    exec (.decPage p) s = decodeOp s p 267 fun bs s => { s with result := decodePage cfg bs 0 } := rfl

/-- Settles O31: an offset past 245 with a legal LEN is a short input. -/
theorem decPageRule : Obligations.DecPageRule := by
  intro s p hidle
  rw [exec_decPage]
  refine ⟨fun hshort => decodeOp_of_short _ hidle (by omega),
    fun b blob padding hi lo hfit hblob hpadding hbytes => ?_⟩
  have hlen : (b :: (blob ++ padding ++ [hi, lo])).length = 267 := by simp [hblob, hpadding]
  rw [← decodePage_append b hi lo hblob hpadding]
  exact decodeOp_result (fun bs => decodePage cfg bs 0) hidle hfit hlen hbytes

end Sys2Proof.Proofs

/-!
The machine against the spec's procedures: a run of the sequencer alone, step by step, comes from the start of each procedure
to what follows its return, with the procedure's own result (20_memory.md R85, 42_handshake.md R231 to R242, 43_download.md
R270 to R288).
-/
namespace Sys2Proof.Proofs

open Sys2Proof.Machine Sys2Proof.Laws

/-! ## Runs of the sequencer alone -/

/-- Nothing but the sequencer moves: no abort is requested and no input waits. -/
def Quiet (s : State) : Prop := s.abortReq = false ∧ s.inputs = []

/-- The events on the serial channel since reset: every Tx and every Rx is one (20_memory.md R84). -/
def channelEvents (s : State) : Nat := s.txLog.length + s.rxLog.length

/-- The machine runs from `a` to `b`, and every step puts one event on the channel. -/
def Runs (a b : State) : Prop := ∃ n, runSteps n a = .next b ∧ channelEvents b = channelEvents a + n

/-- The machine runs from `a` to `b`; a retry pause is a step too, which the channel does not show. -/
def Reaches (a b : State) : Prop := ∃ n, runSteps n a = .next b

theorem Runs.refl (a : State) : Runs a a := ⟨0, rfl, rfl⟩

theorem Runs.trans {a b d : State} (h : Runs a b) (h' : Runs b d) : Runs a d := by
  obtain ⟨m, hm, hem⟩ := h
  obtain ⟨n, hn, hen⟩ := h'
  exact ⟨m + n, by rw [runSteps_add hm, hn], by omega⟩

theorem Runs.reaches {a b : State} (h : Runs a b) : Reaches a b := h.imp fun _ h => h.1

theorem Reaches.trans {a b d : State} (h : Reaches a b) (h' : Reaches b d) : Reaches a d := by
  obtain ⟨m, hm⟩ := h
  obtain ⟨n, hn⟩ := h'
  exact ⟨m + n, by rw [runSteps_add hm, hn]⟩

/-- The events on the channel count the steps. -/
theorem Runs.runSteps_eq {a b : State} {n : Nat} (h : Runs a b) (hn : channelEvents b = channelEvents a + n) :
    runSteps n a = .next b := by
  obtain ⟨m, hm, hem⟩ := h
  rwa [show n = m by omega]

theorem channelEvents_eq {a b : State} (h : channel a = channel b) : channelEvents a = channelEvents b := by
  have htx : a.txLog = b.txLog := congrArg Prod.fst h
  have hrx : a.rxLog = b.rxLog := congrArg Prod.snd h
  rw [channelEvents, channelEvents, htx, hrx]

theorem step_of_quiet {s : State} (h : Quiet s) : step s = .next (advance cfg s) :=
  step_of_nil (cancelDue_of_no_abort h.1) h.2

theorem runSteps_one_of_quiet {s : State} (h : Quiet s) : runSteps 1 s = .next (advance cfg s) :=
  (runSteps_succ (step_of_quiet h)).trans (runSteps_zero _)

theorem runs_advance {s : State} (h : Quiet s) (hev : channelEvents (advance cfg s) = channelEvents s + 1) :
    Runs s (advance cfg s) :=
  ⟨1, runSteps_one_of_quiet h, hev⟩

/-- An Rx writes neither PROG nor what `Quiet` speaks of. -/
theorem quiet_of_receive {s s' : State} {n : Nat} {m : Millis} {a : RxAnswer} (h : Quiet s)
    (hr : receive n m s = (a, s')) : Quiet s' ∧ s'.pages = s.pages ∧ s'.pidx = s.pidx := by
  obtain ⟨answers, draws, hstate⟩ := receive_state n m s
  rw [hr] at hstate
  dsimp only at hstate
  rw [hstate]
  exact ⟨h, rfl, rfl⟩

/-! ## A procedure's state and the machine's

A procedure's state has no hidden loop state; the machine's is the same with one. Entering a point writes the hidden state, so
it matters no more what was there before. -/

/-- The state while an operation with the hidden state `t` runs. -/
def busyWith (t : Task) (s : State) : State := { s with task := some t }

theorem finish_busyWith (code : Code) (t : Task) (s : State) : finish code (busyWith t s) = complete code s := rfl

theorem enter_of_quiet {s : State} (h : Quiet s) (p : Point) (t : Task) :
    enter p t s = busyWith { t with point := p } s := enter_of_no_abort h.1

theorem receive_busyWith (n : Nat) (m : Millis) (t : Task) (s : State) :
    receive n m (busyWith t s) = ((receive n m s).1, busyWith t (receive n m s).2) := by
  have hanswers : (busyWith t s).answers = s.answers := rfl
  unfold receive nextAnswer
  rw [hanswers]
  cases s.answers <;> rfl

theorem selectNewest_busyWith (l : List ArcEntry) (t : Task) (s : State) :
    selectNewest l (busyWith t s) = busyWith t (selectNewest l s) := by
  have hwm : newest ((busyWith t s).wmDate, (busyWith t s).wmTime) l = newest (s.wmDate, s.wmTime) l := rfl
  unfold selectNewest
  rw [hwm]
  cases newest (s.wmDate, s.wmTime) l <;> rfl

/-! ## One suspension point -/

section
variable {s s' : State} {t : Task} {a : RxAnswer}

/-- A Tx completes. -/
theorem runs_tx (h : Quiet s) (p : TxPoint) (t : Task) :
    Runs (enter (.tx p) t s)
      (afterTx cfg { t with point := .tx p } p (busyWith { t with point := .tx p } (transmit (txBytesOf cfg s t p) s))) := by
  have hstep : advance cfg (busyWith { t with point := .tx p } s) =
      afterTx cfg { t with point := .tx p } p
        (busyWith { t with point := .tx p } (transmit (txBytesOf cfg s t p) s)) := by
    rw [advance_of_tx (s := busyWith _ s) rfl rfl]
    cases p <;> rfl
  rw [enter_of_quiet h, ← hstep]
  refine runs_advance h ?_
  rw [hstep, channelEvents_eq (afterTx_channel _ _ _ _)]
  simp only [channelEvents, busyWith, transmit_txLog, transmit_rxLog, List.length_append, List.length_singleton]
  omega

/-- The hidden state when the answer of an Rx has come. -/
def answered (p : RxPoint) (a : RxAnswer) (t : Task) : Task :=
  keepAnswer (rxRequest cfg t p).1 (rxRequest cfg t p).2 a { t with point := .rx p }

/-- An Rx ends with an answer. -/
theorem runs_rx (h : Quiet s) {p : RxPoint} (hr : receive (rxRequest cfg t p).1 (rxRequest cfg t p).2 s = (a, s')) :
    Runs (enter (.rx p) t s) (afterRx cfg (answered p a t) p a (busyWith { t with point := .rx p } s')) := by
  have hrequest : rxRequest cfg { t with point := .rx p } p = rxRequest cfg t p := by cases p <;> rfl
  have hstep := advance_of_rx (c := cfg) (s := busyWith { t with point := .rx p } s) rfl rfl
  rw [hrequest, receive_busyWith, hr] at hstep
  obtain ⟨answers, draws, hstate⟩ := receive_state (rxRequest cfg t p).1 (rxRequest cfg t p).2 s
  rw [hr] at hstate
  dsimp only at hstate
  rw [enter_of_quiet h, answered, ← hstep]
  refine runs_advance h ?_
  rw [hstep, channelEvents_eq (afterRx_channel _ _ _ _ _), hstate]
  simp only [channelEvents, busyWith, List.length_append, List.length_singleton]
  omega

/-- A retry pause ends. -/
theorem reaches_pause (h : Quiet s) (p : PausePoint) (t : Task) :
    Reaches (enter (.pause p) t s)
      (afterPause { t with point := .pause p } p (busyWith { t with point := .pause p } s)) := by
  rw [enter_of_quiet h, ← advance_of_pause (c := cfg) (s := busyWith { t with point := .pause p } s) rfl rfl]
  exact ⟨1, runSteps_one_of_quiet h⟩

end

/-! ## What it is that a procedure returns -/

/-- The machine runs from `a` to the return of a procedure with the result and state `r`, and goes on as `k`, which the result
and the hidden state decide. `P` is what the procedure leaves of the hidden state. -/
def Returns {α : Type} (P : Task → Prop) (a : State) (k : Task → α → State → State) (r : α × State) : Prop :=
  Quiet r.2 ∧ ∃ t t₀, P t ∧ Runs a (k t r.1 (busyWith t₀ r.2))

theorem Returns.of_runs {α : Type} {P : Task → Prop} {a : State} {k : Task → α → State → State} {t t₀ : Task} {x : α}
    {s : State} (hs : Quiet s) (ht : P t) (h : Runs a (k t x (busyWith t₀ s))) : Returns P a k (x, s) :=
  ⟨hs, t, t₀, ht, h⟩

theorem Returns.after {α : Type} {P : Task → Prop} {a b : State} {k : Task → α → State → State} {r : α × State}
    (h : Returns P b k r) (hab : Runs a b) : Returns P a k r := by
  obtain ⟨hs, t, t₀, ht, hrun⟩ := h
  exact ⟨hs, t, t₀, ht, hab.trans hrun⟩

/-- The hidden state of operation `op` in attempt `kd`, with the records `l` collected. -/
def Holds (op : SerialOp) (kd : Nat) (l : List ArcEntry) (t : Task) : Prop := t.op = op ∧ t.kd = kd ∧ t.records = l

/-- The same, whatever has been collected. -/
def HoldsSome (op : SerialOp) (kd : Nat) (t : Task) : Prop := ∃ l, Holds op kd l t

/-! ## The handshake (42_handshake.md R231 to R238) -/

section
variable {op : SerialOp} {kd n : Nat} {l : List ArcEntry} {t : Task} {s s' : State} {a : RxAnswer}

theorem wakeLoop_of_ack {c : Config} (hr : receive 2 c.tAck (transmit wakeReq s) = (.data wakeAck, s')) :
    wakeLoop c (n + 1) s = (.ok, s') := by
  simp [wakeLoop, hr]

theorem wakeLoop_of_bad {c : Config} (hr : receive 2 c.tAck (transmit wakeReq s) = (a, s')) (ha : a ≠ .data wakeAck) :
    wakeLoop c (n + 1) s = wakeLoop c n s' := by
  simp [wakeLoop, hr, ha]

/-- One attempt to wake the device: the line feed, and the Rx after it. -/
theorem runs_wake_exchange (hs : Quiet s) (hr : receive 2 cfg.tAck (transmit wakeReq s) = (a, s')) :
    ∃ t₀, Runs (enter (.tx .wake) t s) (afterRx cfg (answered .wake a t) .wake a (busyWith t₀ s')) :=
  ⟨_, (runs_tx hs .wake t).trans (runs_rx (s := transmit wakeReq s) hs hr)⟩

theorem wakeLoop_returns (n : Nat) (ht : Holds op kd l t) (hs : Quiet s) (hn : t.kw + n = cfg.retries) :
    Returns (Holds op kd l) (enter (.tx .wake) t s) (wakeDone cfg) (wakeLoop cfg (n + 1) s) := by
  induction n using Nat.strong_induction_on generalizing t s with
  | _ n ih =>
    obtain ⟨a, s', hr⟩ : ∃ a s', receive 2 cfg.tAck (transmit wakeReq s) = (a, s') := ⟨_, _, rfl⟩
    have hs' : Quiet s' := (quiet_of_receive (s := transmit wakeReq s) hs hr).1
    obtain ⟨t₀, hrun⟩ := runs_wake_exchange (t := t) hs hr
    by_cases hack : a = .data wakeAck
    · subst hack
      rw [wakeLoop_of_ack hr]
      exact .of_runs (t := answered .wake _ t) hs' ht hrun
    · rw [wakeLoop_of_bad hr hack]
      simp only [afterRx, if_neg hack] at hrun
      have hkw : (answered .wake a t).kw = t.kw := rfl
      cases n with
      | zero =>
        rw [if_neg (by omega)] at hrun
        exact .of_runs (t := answered .wake a t) hs' ht hrun
      | succ n =>
        rw [if_pos (by omega)] at hrun
        exact (ih n (by omega) (t := { answered .wake a t with kw := t.kw + 1 }) ht hs'
          (by show t.kw + 1 + n = _; omega)).after hrun

theorem wake_returns (ht : Holds op kd l t) (hs : Quiet s) :
    Returns (Holds op kd l) (startWake t s) (wakeDone cfg) (wakeProc cfg s) :=
  wakeLoop_returns (t := { t with kw := 1 }) (s := { s with seq := .wake }) 2 ht hs rfl

/-- The timeout of a command's confirmation (42_handshake.md R233). -/
def confirmTimeout (op : SerialOp) : Millis := if expectsOk op then cfg.tOk else cfg.tAck

theorem rxRequest_confirm (t : Task) :
    rxRequest cfg t .confirm = ((confirmation t.op).length, confirmTimeout t.op) := by
  unfold rxRequest confirmation confirmTimeout
  cases expectsOk t.op <;> rfl

section
variable {c : Config} {frame want bs : List Byte} {m : Millis}

theorem sendLoop_of_timeout (hr : receive want.length m (transmit frame s) = (.timeout, s')) :
    sendLoop c frame want m (n + 1) s = (.unreachable, s') := by
  simp [sendLoop, hr]

theorem sendLoop_of_want (hr : receive want.length m (transmit frame s) = (.data want, s')) :
    sendLoop c frame want m (n + 1) s = (.ok, s') := by
  simp [sendLoop, hr]

theorem sendLoop_of_bad (hr : receive want.length m (transmit frame s) = (.data bs, s')) (hbs : bs ≠ want) :
    sendLoop c frame want m (n + 1) s = sendLoop c frame want m n s' := by
  simp [sendLoop, hr, hbs]

end

/-- One attempt to send the command: its frame, and the Rx of its confirmation. -/
theorem runs_send_exchange (hs : Quiet s)
    (hr : receive (confirmation t.op).length (confirmTimeout t.op) (transmit (frameOf t.op) s) = (a, s')) :
    ∃ t₀, Runs (enter (.tx .send) t s) (afterRx cfg (answered .confirm a t) .confirm a (busyWith t₀ s')) := by
  have hr' : receive (rxRequest cfg t .confirm).1 (rxRequest cfg t .confirm).2 (transmit (frameOf t.op) s) = (a, s') := by
    rw [rxRequest_confirm, hr]
  exact ⟨_, (runs_tx hs .send t).trans (runs_rx (s := transmit (frameOf t.op) s) hs hr')⟩

theorem sendLoop_returns (n : Nat) (ht : Holds op kd l t) (hs : Quiet s) (hn : t.ks + n = cfg.retries) :
    Returns (Holds op kd l) (enter (.tx .send) t s) (commandDone cfg)
      (sendLoop cfg (frameOf op) (confirmation op) (confirmTimeout op) (n + 1) s) := by
  induction n using Nat.strong_induction_on generalizing t s with
  | _ n ih =>
    have hop : t.op = op := ht.1
    obtain ⟨a, s', hr⟩ :
        ∃ a s', receive (confirmation op).length (confirmTimeout op) (transmit (frameOf op) s) = (a, s') := ⟨_, _, rfl⟩
    have hs' : Quiet s' := (quiet_of_receive (s := transmit _ s) hs hr).1
    obtain ⟨t₀, hrun⟩ := runs_send_exchange (t := t) hs (hop ▸ hr)
    cases a with
    | timeout =>
      rw [sendLoop_of_timeout hr]
      exact .of_runs (t := answered .confirm _ t) hs' ht hrun
    | data bs =>
      have hwant : confirmation (answered .confirm (.data bs) t).op = confirmation op := congrArg confirmation hop
      have hks : (answered .confirm (.data bs) t).ks = t.ks := rfl
      simp only [afterRx, hwant] at hrun
      by_cases hbs : bs = confirmation op
      · subst hbs
        rw [if_pos rfl] at hrun
        rw [sendLoop_of_want hr]
        exact .of_runs (t := answered .confirm _ t) hs' ht hrun
      · rw [if_neg hbs] at hrun
        rw [sendLoop_of_bad hr hbs]
        cases n with
        | zero =>
          rw [if_neg (by omega)] at hrun
          exact .of_runs (t := answered .confirm _ t) hs' ht hrun
        | succ n =>
          rw [if_pos (by omega)] at hrun
          exact (ih n (by omega) (t := { answered .confirm (.data bs) t with ks := t.ks + 1 }) ht hs'
            (by show t.ks + 1 + n = _; omega)).after hrun

/-- The command of an operation, as the spec's procedure runs it (42_handshake.md R236). -/
def commandOfOp (op : SerialOp) (s : State) : CmdResult × State :=
  commandProc cfg (commandOf op).1 (commandOf op).2.1 (expectsOk op) s

theorem commandOfOp_of_unreachable (op : SerialOp) (h : wakeProc cfg s = (.unreachable, s')) :
    commandOfOp op s = (.unreachable, s') := by
  simp [commandOfOp, commandProc, h]

theorem commandOfOp_of_awake (op : SerialOp) (h : wakeProc cfg s = (.ok, s')) :
    commandOfOp op s =
      sendLoop cfg (frameOf op) (confirmation op) (confirmTimeout op) cfg.retries { s' with seq := .send } := by
  simp only [commandOfOp, commandProc, h, frameOf, confirmation, confirmTimeout]
  by_cases hok : expectsOk op = true
  · simp only [if_pos hok]
  · simp only [if_neg hok]

theorem wakeDone_of_unreachable (h : t.op ≠ .wake) : wakeDone cfg t .unreachable s = commandDone cfg t .unreachable s := by
  unfold wakeDone
  split <;> simp_all

theorem wakeDone_of_ok (h : t.op ≠ .wake) : wakeDone cfg t .ok s = startSend t s := by
  unfold wakeDone
  split <;> simp_all

theorem command_returns (hwake : op ≠ .wake) (ht : Holds op kd l t) (hs : Quiet s) :
    Returns (Holds op kd l) (startWake t s) (commandDone cfg) (commandOfOp op s) := by
  obtain ⟨hs', t', t₀, ht', hrun⟩ := wake_returns ht hs
  have hop : t'.op ≠ .wake := ht'.1 ▸ hwake
  obtain ⟨r, s', hw⟩ : ∃ r s', wakeProc cfg s = (r, s') := ⟨_, _, rfl⟩
  rw [hw] at hs' hrun
  cases r with
  | unreachable =>
    rw [commandOfOp_of_unreachable op hw]
    rw [wakeDone_of_unreachable hop] at hrun
    exact .of_runs hs' ht' hrun
  | ok =>
    rw [commandOfOp_of_awake op hw]
    rw [wakeDone_of_ok hop] at hrun
    exact (sendLoop_returns (t := { t' with ks := 1 }) (s := { s' with seq := .send }) 2 ht' hs' rfl).after hrun

end

/-! ## A download attempt (43_download.md R270 to R278) -/

section
variable {op : SerialOp} {kd n : Nat} {l : List ArcEntry} {t t₀ : Task} {s s' : State} {f : List Byte}

/-- A frame that failed its CRC is answered with the escape byte, and the attempt has no result. -/
theorem escape_returns (ht : HoldsSome op kd t) (hs : Quiet s) :
    Returns (HoldsSome op kd) (enter (.tx .escape) t s) (attemptDone cfg) (.noResult, transmit escToken s) :=
  .of_runs (t := { t with point := .tx .escape }) hs ht (runs_tx hs .escape t)

/-! ### The pages (R275) -/

section
variable {c : Config} {offset i : Nat}

/-- The state in which page `i` is awaited. -/
def readingPage (i : Nat) (s : State) : State := { s with seq := .pageLoop, pidx := BitVec.ofNat 16 i }

theorem pagesLoop_of_timeout (hr : receive c.pageSize c.tData (readingPage i s) = (.timeout, s')) :
    pagesLoop c offset (n + 1) i l s = (.unreachable, s') := by
  unfold readingPage at hr
  simp only [pagesLoop, hr]

theorem pagesLoop_of_bad (hr : receive c.pageSize c.tData (readingPage i s) = (.data f, s')) (hf : verify c f = false) :
    pagesLoop c offset (n + 1) i l s = (.noResult, transmit escToken s') := by
  unfold readingPage at hr
  simp only [pagesLoop, hr, hf, Bool.false_eq_true, if_false]

theorem pagesLoop_of_valid (hr : receive c.pageSize c.tData (readingPage i s) = (.data f, s')) (hf : verify c f = true) :
    pagesLoop c offset (n + 1) i l s =
      pagesLoop c offset n (i + 1) (walkPage c f i offset (s'.rev, l)).2
        { transmit ackToken s' with rev := (walkPage c f i offset (s'.rev, l)).1 } := by
  unfold readingPage at hr
  simp only [pagesLoop, hr, hf, if_true]

theorem pageLoop_of_lt (h : i < s.pages.toNat) :
    pageLoop cfg i t (busyWith t₀ s) = enter (.rx .page) t (readingPage i s) := if_pos h

theorem pageLoop_of_end (h : s.pages.toNat ≤ i) :
    pageLoop cfg i t (busyWith t₀ s) = attemptDone cfg t (.list t.records) (busyWith t₀ s) :=
  if_neg (Nat.not_lt.mpr h)

/-- A valid page is acknowledged and walked before the next one is awaited. -/
theorem runs_pageAck (hs : Quiet s) (hi : s.pidx.toNat = i) (hbuf : t.rxbuf = f) (hl : t.records = l) :
    ∃ t₀, Runs (enter (.tx .pageAck) t s)
      (pageLoop cfg (i + 1)
        { t with point := .tx .pageAck, records := (walkPage cfg f i t.offset.toNat (s.rev, l)).2 }
        (busyWith t₀ { transmit ackToken s with rev := (walkPage cfg f i t.offset.toNat (s.rev, l)).1 })) := by
  subst hi hbuf hl
  exact ⟨_, runs_tx hs .pageAck t⟩

theorem pageLoop_returns (ht : Holds op kd l t) (hs : Quiet s) (hpages : s.pages.toNat = i + n) :
    Returns (HoldsSome op kd) (pageLoop cfg i t (busyWith t₀ s)) (attemptDone cfg)
      (pagesLoop cfg t.offset.toNat n i l s) := by
  induction n generalizing i l t t₀ s with
  | zero =>
    rw [pageLoop_of_end (by omega), ht.2.2]
    exact .of_runs hs ⟨l, ht⟩ (Runs.refl _)
  | succ n ih =>
    obtain ⟨a, s', hr⟩ : ∃ a s', receive cfg.pageSize cfg.tData (readingPage i s) = (a, s') := ⟨_, _, rfl⟩
    obtain ⟨hs', hpages', hpidx'⟩ := quiet_of_receive (s := readingPage i s) hs hr
    rw [pageLoop_of_lt (by omega)]
    refine Returns.after ?_ (runs_rx (s := readingPage i s) (p := .page) hs hr)
    have ht' : Holds op kd l (answered .page a t) := ht
    cases a with
    | timeout =>
      rw [pagesLoop_of_timeout hr]
      exact .of_runs hs' ⟨l, ht'⟩ (Runs.refl _)
    | data f =>
      cases hf : verify cfg f with
      | false =>
        rw [pagesLoop_of_bad hr hf]
        simp only [afterRx, checkFrame, hf, Bool.false_eq_true, if_false]
        exact escape_returns ⟨l, ht'⟩ hs'
      | true =>
        have hi : s'.pidx.toNat = i := by
          have hlt := s.pages.isLt
          rw [hpidx']
          exact Nat.mod_eq_of_lt (by omega)
        have hnext : s'.pages.toNat = i + 1 + n := by
          rw [hpages']
          exact hpages.trans (by omega)
        rw [pagesLoop_of_valid hr hf]
        simp only [afterRx, checkFrame, hf, if_true]
        obtain ⟨t₁, hrun⟩ :=
          runs_pageAck (f := f) (t := { answered .page (.data f) t with pcrc := crc cfg f }) hs' hi rfl ht.2.2
        refine Returns.after ?_ hrun
        exact ih ⟨ht.1, ht.2.1, rfl⟩ hs' hnext

end

/-! ### The header (R273, R274) -/

/-- `DownloadAttempt()` from the wait for the header on. -/
def headerProc (c : Config) (s : State) : Attempt × State :=
  let h := receive c.hdrSize c.tData s
  match h.1 with
  | .timeout => (.unreachable, h.2)
  | .data hb =>
    if verify c hb then
      pagesLoop c (le16 hb 2).toNat (le16 hb 0).toNat 0 []
        { transmit ackToken h.2 with seq := .headerReceived, pages := le16 hb 0 }
    else (.noResult, transmit escToken h.2)

theorem headerProc_returns (ht : Holds op kd [] t) (hs : Quiet s) :
    Returns (HoldsSome op kd) (enter (.rx .header) t s) (attemptDone cfg) (headerProc cfg s) := by
  obtain ⟨a, s', hr⟩ : ∃ a s', receive cfg.hdrSize cfg.tData s = (a, s') := ⟨_, _, rfl⟩
  have hs' : Quiet s' := (quiet_of_receive hs hr).1
  refine Returns.after ?_ (runs_rx (p := .header) hs hr)
  have ht' : Holds op kd [] (answered .header a t) := ht
  cases a with
  | timeout =>
    simp only [headerProc, hr]
    exact .of_runs hs' ⟨[], ht'⟩ (Runs.refl _)
  | data hb =>
    cases hf : verify cfg hb with
    | false =>
      simp only [headerProc, hr, afterRx, checkFrame, hf, Bool.false_eq_true, if_false]
      exact escape_returns ⟨[], ht'⟩ hs'
    | true =>
      simp only [headerProc, hr, afterRx, checkFrame, hf, if_true]
      have hrun := runs_tx hs' .headerAck { answered .header (.data hb) t with pcrc := crc cfg hb }
      refine Returns.after ?_ hrun
      exact pageLoop_returns (i := 0) (n := (le16 hb 0).toNat)
        (t := { answered .header (.data hb) t with pcrc := crc cfg hb, offset := le16 hb 2, point := .tx .headerAck })
        (s := { transmit ackToken s' with seq := .headerReceived, pages := le16 hb 0 }) ht hs' (by simp)

/-! ### The watermark (R271, R272) -/

/-- `DownloadAttempt()` from the watermark frame on. -/
def watermarkProc (c : Config) (s : State) : Attempt × State :=
  let r := receive 1 c.tAck { transmit (watermarkFrame c s.wmDate s.wmTime) s with seq := .headerSent }
  match r.1 with
  | .timeout => (.unreachable, r.2)
  | .data bs => if bs = ackToken then headerProc c r.2 else (.noResult, r.2)

/-- The state in which the acknowledgement of the watermark frame is awaited. -/
def watermarkSent (s : State) : State :=
  { transmit (watermarkFrame cfg s.wmDate s.wmTime) s with seq := .headerSent }

theorem watermarkProc_returns (ht : Holds op kd [] t) (hs : Quiet s) :
    Returns (HoldsSome op kd) (enter (.tx .watermark) t s) (attemptDone cfg) (watermarkProc cfg s) := by
  obtain ⟨a, s', hr⟩ : ∃ a s', receive 1 cfg.tAck (watermarkSent s) = (a, s') := ⟨_, _, rfl⟩
  have hs' : Quiet s' := (quiet_of_receive (s := watermarkSent s) hs hr).1
  have hrun := (runs_tx hs .watermark t).trans
    (runs_rx (s := watermarkSent s) (t := { t with point := .tx .watermark }) (p := .watermarkAck) hs hr)
  refine Returns.after ?_ hrun
  have ht' : Holds op kd [] (answered .watermarkAck a { t with point := .tx .watermark }) := ht
  unfold watermarkSent at hr
  cases a with
  | timeout =>
    simp only [watermarkProc, hr]
    exact .of_runs hs' ⟨[], ht'⟩ (Runs.refl _)
  | data bs =>
    simp only [watermarkProc, hr, afterRx]
    split
    · exact headerProc_returns ht' hs'
    · exact .of_runs hs' ⟨[], ht'⟩ (Runs.refl _)

/-! ### The attempt -/

theorem download_or_pollArc (h : op.downloads = true) : op = .download ∨ op = .pollArc := by
  cases op <;> simp [SerialOp.downloads] at h ⊢

theorem commandOf_of_downloads (h : op.downloads = true) : commandOf op = (textDmpaft, [], false) := by
  rcases download_or_pollArc h with rfl | rfl <;> rfl

theorem attemptProc_of_unreachable (h : commandProc cfg textDmpaft [] false (clearProg s) = (.unreachable, s')) :
    attemptProc cfg s = (.unreachable, s') := by
  simp only [attemptProc, h]

theorem attemptProc_of_confirmed (h : commandProc cfg textDmpaft [] false (clearProg s) = (.ok, s')) :
    attemptProc cfg s = watermarkProc cfg s' := by
  simp only [attemptProc, h]
  rfl

theorem commandDone_of_unreachable (h : t.op.downloads = true) :
    commandDone cfg t .unreachable s = attemptDone cfg t .unreachable s := by
  rcases download_or_pollArc h with hop | hop <;> simp only [commandDone, hop]

theorem commandDone_of_confirmed (h : t.op.downloads = true) :
    commandDone cfg t .ok s = enter (.tx .watermark) { t with pcrc := crc cfg (watermarkBody s.wmDate s.wmTime) } s := by
  rcases download_or_pollArc h with hop | hop <;> simp only [commandDone, hop]

theorem attemptProc_returns (hop : op.downloads = true) (ht : Holds op kd [] t) (hs : Quiet s) :
    Returns (HoldsSome op kd) (startWake t (clearProg s)) (attemptDone cfg) (attemptProc cfg s) := by
  have hwake : op ≠ .wake := by rintro rfl; cases hop
  obtain ⟨hs', t', t₀, ht', hrun⟩ := command_returns (s := clearProg s) hwake ht hs
  have hcommand : commandOfOp op (clearProg s) = commandProc cfg textDmpaft [] false (clearProg s) := by
    rw [commandOfOp, expectsOk, commandOf_of_downloads hop]
  obtain ⟨r, s', hr⟩ : ∃ r s', commandProc cfg textDmpaft [] false (clearProg s) = (r, s') := ⟨_, _, rfl⟩
  rw [hcommand, hr] at hs' hrun
  refine Returns.after ?_ hrun
  cases r with
  | unreachable =>
    rw [attemptProc_of_unreachable hr, commandDone_of_unreachable (ht'.1 ▸ hop)]
    exact .of_runs hs' ⟨[], ht'⟩ (Runs.refl _)
  | ok =>
    rw [attemptProc_of_confirmed hr, commandDone_of_confirmed (ht'.1 ▸ hop)]
    exact watermarkProc_returns (t := { t' with pcrc := _ }) ht' hs'

end

/-! ## The operations (42_handshake.md R240 to R242, 43_download.md R279, R281, R286) -/

section
variable {op : SerialOp} {kd n : Nat} {t t₀ : Task} {s s' : State} {f : List Byte} {l : List ArcEntry} {c : Config}

/-! ### WAKE, SETPER and CLRLOG -/

theorem wake_runs (hs : Quiet s) : Runs (startWake (newTask cfg .wake) s) (operationProc cfg .wake s) := by
  obtain ⟨-, t, t₀, ⟨hop, -⟩, hrun⟩ := wake_returns (t := newTask cfg .wake) ⟨rfl, rfl, rfl⟩ hs
  have hdone : wakeDone cfg t (wakeProc cfg s).1 (busyWith t₀ (wakeProc cfg s).2) = operationProc cfg .wake s := by
    simp only [wakeDone, hop]
    exact finish_busyWith _ _ _
  rwa [hdone] at hrun

theorem command_runs (hop : (∃ n, op = .setper n) ∨ op = .clrlog) (hs : Quiet s) :
    Runs (startWake (newTask cfg op) s) (complete (commandOfOp op s).1.code (commandOfOp op s).2) := by
  have hwake : op ≠ .wake := by rcases hop with ⟨n, rfl⟩ | rfl <;> exact SerialOp.noConfusion
  obtain ⟨-, t, t₀, ⟨htop, -⟩, hrun⟩ := command_returns (t := newTask cfg op) hwake ⟨rfl, rfl, rfl⟩ hs
  have hdone (r : CmdResult) (s : State) : commandDone cfg t r s = finish r.code s := by
    rcases hop with ⟨n, rfl⟩ | rfl <;> simp only [commandDone, htop]
  rwa [hdone, finish_busyWith] at hrun

/-! ### POLL_RT -/

theorem snapshotLoop_of_timeout (hr : receive c.snapSize c.tData { s with seq := .dataRead } = (.timeout, s')) :
    snapshotLoop c n s = complete .deviceUnreachable s' := by
  cases n <;> simp only [snapshotLoop, hr]

theorem snapshotLoop_of_valid (hr : receive c.snapSize c.tData { s with seq := .dataRead } = (.data f, s'))
    (hf : verify c f = true) : snapshotLoop c n s = complete .ok { s' with result := .snap (decodeSnap c f 0) } := by
  cases n <;> simp only [snapshotLoop, hr, hf, if_true]

theorem snapshotLoop_zero_of_bad (hr : receive c.snapSize c.tData { s with seq := .dataRead } = (.data f, s'))
    (hf : verify c f = false) : snapshotLoop c 0 s = complete .deviceUnreachable s' := by
  simp only [snapshotLoop, hr, hf, Bool.false_eq_true, if_false]

theorem snapshotLoop_succ_of_bad (hr : receive c.snapSize c.tData { s with seq := .dataRead } = (.data f, s'))
    (hf : verify c f = false) : snapshotLoop c (n + 1) s = snapshotLoop c n s' := by
  simp only [snapshotLoop, hr, hf, Bool.false_eq_true, if_false]

theorem snapshotLoop_reached (hn : t.kr + n = cfg.retries) (hs : Quiet s) :
    Reaches (startSnapshotRead t s) (snapshotLoop cfg n s) := by
  induction n using Nat.strong_induction_on generalizing t s with
  | _ n ih =>
    obtain ⟨a, s', hr⟩ : ∃ a s', receive cfg.snapSize cfg.tData { s with seq := .dataRead } = (a, s') := ⟨_, _, rfl⟩
    have hs' : Quiet s' := (quiet_of_receive (s := { s with seq := .dataRead }) hs hr).1
    have hrun := runs_rx (s := { s with seq := .dataRead }) (t := t) (p := .snapshot) hs hr
    have hkr : (answered .snapshot a t).kr = t.kr := rfl
    refine hrun.reaches.trans ?_
    cases a with
    | timeout =>
      rw [snapshotLoop_of_timeout hr]
      exact (Runs.refl _).reaches
    | data f =>
      cases hf : verify cfg f with
      | true =>
        rw [snapshotLoop_of_valid hr hf]
        simp only [afterRx, checkFrame, hf, if_true]
        exact (Runs.refl _).reaches
      | false =>
        simp only [afterRx, checkFrame, hf, Bool.false_eq_true, if_false]
        cases n with
        | zero =>
          rw [snapshotLoop_zero_of_bad hr hf, if_neg (by omega)]
          exact (Runs.refl _).reaches
        | succ n =>
          rw [snapshotLoop_succ_of_bad hr hf, if_pos (by omega)]
          refine (reaches_pause (s := { s' with seq := .pause }) hs' .snapshot _).trans ?_
          exact ih n (by omega) (by show t.kr + 1 + n = _; omega) hs'

theorem pollRt_reaches (hs : Quiet s) :
    Reaches (startWake (newTask cfg .pollRt) (cleared .pollRt s)) (operationProc cfg .pollRt s) := by
  obtain ⟨hs', t, t₀, ⟨hop, -⟩, hrun⟩ := command_returns (op := .pollRt) (t := newTask cfg .pollRt)
    (s := cleared .pollRt s) SerialOp.noConfusion ⟨rfl, rfl, rfl⟩ hs
  obtain ⟨r, s', hr⟩ : ∃ r s', commandProc cfg textLoop [1] false { s with result := .none } = (r, s') := ⟨_, _, rfl⟩
  have hcommand : commandOfOp .pollRt (cleared .pollRt s) = (r, s') := hr
  rw [hcommand] at hs' hrun
  refine hrun.reaches.trans ?_
  cases r with
  | unreachable =>
    simp only [commandDone, hop, operationProc, pollRtProc, hr]
    exact (Runs.refl _).reaches
  | ok =>
    simp only [commandDone, hop, operationProc, pollRtProc, hr]
    exact snapshotLoop_reached (n := 2) (t := { t with op := .pollRt, kr := 1 }) (s := s') rfl hs'

/-! ### DOWNLOAD -/

theorem download_runs (hs : Quiet s) :
    Runs (startWake (newTask cfg .download) (cleared .download s)) (operationProc cfg .download s) := by
  obtain ⟨-, t, t₀, ⟨l, hop, -⟩, hrun⟩ := attemptProc_returns (op := .download) (t := newTask cfg .download)
    (s := clearSel { s with rlist := [] }) rfl ⟨rfl, rfl, rfl⟩ hs
  obtain ⟨r, s', hr⟩ : ∃ r s', attemptProc cfg (clearSel { s with rlist := [] }) = (r, s') := ⟨_, _, rfl⟩
  rw [hr] at hrun
  refine Runs.trans hrun ?_
  cases r <;> simp only [attemptDone, hop, operationProc, downloadProc, hr] <;> exact Runs.refl _

/-! ### POLL_ARC -/

theorem attemptsLoop_of_list (hr : attemptProc c s = (.list l, s')) :
    attemptsLoop c n s = complete .ok (selectNewest l { s' with rlist := l }) := by
  cases n <;> simp only [attemptsLoop, hr]

theorem attemptsLoop_of_unreachable (hr : attemptProc c s = (.unreachable, s')) :
    attemptsLoop c n s = complete .deviceUnreachable s' := by
  cases n <;> simp only [attemptsLoop, hr]

theorem attemptsLoop_zero_of_noResult (hr : attemptProc c s = (.noResult, s')) :
    attemptsLoop c 0 s = complete .noNewRecords s' := by
  simp only [attemptsLoop, hr]

theorem attemptsLoop_succ_of_noResult (hr : attemptProc c s = (.noResult, s')) :
    attemptsLoop c (n + 1) s = attemptsLoop c n s' := by
  simp only [attemptsLoop, hr]

theorem attemptsLoop_reached (ht : Holds .pollArc kd [] t) (hn : kd + n = cfg.retries) (hs : Quiet s) :
    Reaches (startWake t (clearProg s)) (attemptsLoop cfg n s) := by
  induction n using Nat.strong_induction_on generalizing kd t s with
  | _ n ih =>
    obtain ⟨hs', t', t₀, ⟨l', hop, hkd, -⟩, hrun⟩ := attemptProc_returns rfl ht hs
    obtain ⟨r, s', hr⟩ : ∃ r s', attemptProc cfg s = (r, s') := ⟨_, _, rfl⟩
    rw [hr] at hrun hs'
    refine hrun.reaches.trans ?_
    cases r with
    | list l =>
      rw [attemptsLoop_of_list hr]
      have hdone : attemptDone cfg t' (.list l) (busyWith t₀ s') = complete .ok (selectNewest l { s' with rlist := l }) := by
        simp only [attemptDone, hop]
        exact congrArg (finish .ok) (selectNewest_busyWith l t₀ { s' with rlist := l })
      rw [hdone]
      exact (Runs.refl _).reaches
    | unreachable =>
      rw [attemptsLoop_of_unreachable hr]
      exact (Runs.refl _).reaches
    | noResult =>
      simp only [attemptDone, hop, hkd]
      cases n with
      | zero =>
        rw [attemptsLoop_zero_of_noResult hr, if_neg (by omega)]
        exact (Runs.refl _).reaches
      | succ n =>
        rw [attemptsLoop_succ_of_noResult hr, if_pos (by omega)]
        refine (reaches_pause (s := { s' with seq := .pause }) hs' .attempt _).trans ?_
        exact ih n (by omega) (kd := kd + 1) (t := { t' with point := .pause .attempt, kd := t'.kd + 1, records := [] })
          ⟨hop, congrArg (· + 1) hkd, rfl⟩ (by omega) hs'

theorem pollArc_reaches (hs : Quiet s) :
    Reaches (startWake (newTask cfg .pollArc) (cleared .pollArc s)) (operationProc cfg .pollArc s) :=
  attemptsLoop_reached (s := clearSel { s with result := .none, rlist := [] }) ⟨rfl, rfl, rfl⟩ rfl hs

theorem operationProc_reached (op : SerialOp) (hs : Quiet s) :
    Reaches (startWake (newTask cfg op) (cleared op s)) (operationProc cfg op s) := by
  cases op with
  | wake => exact (wake_runs hs).reaches
  | setper n => exact (command_runs (.inl ⟨n, rfl⟩) hs).reaches
  | clrlog => exact (command_runs (.inr rfl) hs).reaches
  | pollRt => exact pollRt_reaches hs
  | download => exact (download_runs hs).reaches
  | pollArc => exact pollArc_reaches hs

end

/-- Settles O33: each procedure returns where the machine stands after the same exchanges. -/
theorem machineFollowsProcedures : Obligations.MachineFollowsProcedures := by
  rintro op s ⟨-, habort, hin⟩
  obtain ⟨n, hn⟩ := operationProc_reached op (s := s) ⟨habort, hin⟩
  exact ⟨_, n, exec_serial op s, hn⟩

/-- Settles O32: the first Tx point is entered, because no abort is requested. -/
theorem serialOperationsStart : Obligations.SerialOperationsStart := by
  intro s _ habort
  have hstart (op : SerialOp) :
      exec op.instr s = .next { cleared op s with seq := .wake, task := some (newTask cfg op) } := by
    have habort' : (cleared op s).abortReq = false := (cleared_abortReq op s).trans habort
    rw [exec_serial, startWake, enter_of_no_abort (s := { cleared op s with seq := .wake }) habort']
    rfl
  exact ⟨hstart .wake, fun n => hstart (.setper n), hstart .clrlog, hstart .pollRt, hstart .download, hstart .pollArc⟩

end Sys2Proof.Proofs

/-!
The handshake against a list of answers: what the procedures of WAKE, SETPER and CLRLOG return when their attempts fail and
succeed in a given order, and from it how these operations end (42_handshake.md R231 to R242).
-/
namespace Sys2Proof.Proofs

open Sys2Proof.Machine Sys2Proof.Laws

/-! ## A sequence of exchanges -/

/-- The channel's record of an Rx `(n, m)` that the device answers with `a`. -/
def rxRecord (n : Nat) (m : Millis) (a : RxAnswer) : RxRecord := { n := n, timeout := m, answer := some (clampAnswer n a) }

/-- The state after one exchange for each of the answers `as`: `bs` is sent and `Rx(n, m)` answered. -/
def exchanged (bs : List Byte) (n : Nat) (m : Millis) (as rest : List RxAnswer) (s : State) : State :=
  { s with
    answers := rest
    txLog := s.txLog ++ List.replicate as.length bs
    rxLog := s.rxLog ++ as.map (rxRecord n m) }

section
variable {bs : List Byte} {n k : Nat} {m : Millis} {a : RxAnswer} {as as' bad rest rest' : List RxAnswer} {s : State}

theorem exchanged_nil (h : s.answers = rest) : exchanged bs n m [] rest s = s := by
  subst h
  simp [exchanged]

theorem exchanged_exchanged :
    exchanged bs n m as rest (exchanged bs n m as' rest' s) = exchanged bs n m (as' ++ as) rest s := by
  simp only [exchanged, List.append_assoc, List.length_append, List.replicate_add, List.map_append]

theorem receive_transmit {x : RxAnswer} (h : s.answers = a :: rest) (hx : clampAnswer n a = x) :
    receive n m (transmit bs s) = (x, exchanged bs n m [a] rest s) :=
  hx ▸ receive_cons (s := transmit bs s) h

theorem channelEvents_exchanged (bs : List Byte) (n : Nat) (m : Millis) (as rest : List RxAnswer) (s : State) :
    channelEvents (exchanged bs n m as rest s) = channelEvents s + 2 * as.length := by
  simp only [channelEvents, exchanged, List.length_append, List.length_replicate, List.length_map]
  omega

theorem complete_eq (code : Code) (htask : s.task = none) (habort : s.abortReq = false) :
    complete code s = { s with code := code, done := true, seq := if code = .ok then .done else .aborted } := by
  simp [complete, htask, habort]

theorem channelEvents_start (op : SerialOp) (t : Task) : channelEvents (startWake t (cleared op s)) = channelEvents s :=
  channelEvents_eq ((enter_channel _ _ { cleared op s with seq := .wake }).trans (cleared_channel op s))

/-! ## WAKE (R231, R240) -/

/-- Failed wake attempts, one after the other. -/
theorem wakeLoop_after_bad (hbad : ∀ a ∈ bad, clampAnswer 2 a ≠ .data wakeAck) (h : s.answers = bad ++ rest) :
    wakeLoop cfg (bad.length + k) s = wakeLoop cfg k (exchanged wakeReq 2 cfg.tAck bad rest s) := by
  induction bad generalizing s with
  | nil => rw [exchanged_nil (rest := rest) h, List.length_nil, Nat.zero_add]
  | cons a bad ih =>
    rw [List.length_cons, Nat.add_right_comm,
      wakeLoop_of_bad (receive_transmit h rfl) (hbad a List.mem_cons_self),
      ih (fun x hx => hbad x (List.mem_cons_of_mem a hx)) rfl, exchanged_exchanged, List.singleton_append]

theorem wakeProc_of_ack (hbad : ∀ a ∈ bad, clampAnswer 2 a ≠ .data wakeAck) (hlen : bad.length ≤ 2)
    (h : s.answers = bad ++ .data wakeAck :: rest) :
    wakeProc cfg s = (.ok, exchanged wakeReq 2 cfg.tAck (bad ++ [.data wakeAck]) rest { s with seq := .wake }) := by
  have hretries : cfg.retries = bad.length + (2 - bad.length + 1) := by rw [cfg_retries]; omega
  rw [wakeProc, hretries, wakeLoop_after_bad (s := { s with seq := .wake }) hbad h,
    wakeLoop_of_ack (receive_transmit rfl (clampAnswer_exact wakeAck)), exchanged_exchanged]

theorem wakeProc_of_three_bad (hbad : ∀ a ∈ bad, clampAnswer 2 a ≠ .data wakeAck) (hlen : bad.length = 3)
    (h : s.answers = bad ++ rest) :
    wakeProc cfg s = (.unreachable, exchanged wakeReq 2 cfg.tAck bad rest { s with seq := .wake }) := by
  have hretries : cfg.retries = bad.length + 0 := hlen.symm
  rw [wakeProc, hretries, wakeLoop_after_bad (s := { s with seq := .wake }) hbad h]
  rfl

/-- WAKE ends with its procedure's result, one step for every event on the channel. -/
theorem wake_ends {r : CmdResult} (hready : Ready s)
    (hproc : wakeProc cfg s = (r, exchanged wakeReq 2 cfg.tAck as rest { s with seq := .wake })) (hn : 2 * as.length = n) :
    ∃ t u, exec .wake s = .next t ∧ runSteps n t = .next u ∧
      u = { s with
        seq := if r.code = .ok then .done else .aborted, code := r.code, done := true, answers := rest
        txLog := s.txLog ++ List.replicate as.length wakeReq
        rxLog := s.rxLog ++ as.map (rxRecord 2 cfg.tAck) } := by
  obtain ⟨htask, habort, hin⟩ := hready
  refine ⟨_, _, exec_serial .wake s, (wake_runs (s := s) ⟨habort, hin⟩).runSteps_eq ?_, ?_⟩
  · have hstart : channelEvents (startWake (newTask cfg .wake) s) = channelEvents s := channelEvents_start .wake _
    rw [hstart, operationProc, hproc, ← hn]
    exact channelEvents_exchanged wakeReq 2 cfg.tAck as rest { s with seq := .wake }
  · rw [operationProc, hproc]
    exact complete_eq _ htask habort

/-- Settles O34: the attempts use up exactly the answers given. -/
theorem wakeTries : Obligations.WakeTries := by
  refine fun s bad rest hready hbad => ⟨fun hlen h => ?_, fun hlen h => ?_⟩
  · have hlen' : (bad ++ [RxAnswer.data wakeAck]).length = bad.length + 1 := List.length_append
    have hends := wake_ends (n := 2 * bad.length + 2) hready (wakeProc_of_ack hbad hlen h) (by omega)
    rwa [hlen'] at hends
  · have hends := wake_ends (n := 6) hready (wakeProc_of_three_bad hbad hlen h) (by omega)
    rwa [hlen] at hends

end

/-! ## SETPER and CLRLOG (R233, R238, R241, R242) -/

section
variable {op : SerialOp} {frame want : List Byte} {n k : Nat} {m : Millis} {bad rest : List RxAnswer} {s s' : State}

/-- Wrong confirmations, one after the other. -/
theorem sendLoop_after_bad (hbad : ∀ a ∈ bad, ∃ bs, a = .data bs ∧ bs.length = want.length ∧ bs ≠ want)
    (h : s.answers = bad ++ rest) :
    sendLoop cfg frame want m (bad.length + k) s =
      sendLoop cfg frame want m k (exchanged frame want.length m bad rest s) := by
  induction bad generalizing s with
  | nil => rw [exchanged_nil (rest := rest) h, List.length_nil, Nat.zero_add]
  | cons a bad ih =>
    obtain ⟨bs, rfl, hlen, hne⟩ := hbad a List.mem_cons_self
    have hexact : clampAnswer want.length (.data bs) = .data bs := hlen ▸ clampAnswer_exact bs
    rw [List.length_cons, Nat.add_right_comm, sendLoop_of_bad (receive_transmit h hexact) hne,
      ih (fun x hx => hbad x (List.mem_cons_of_mem _ hx)) rfl, exchanged_exchanged, List.singleton_append]

section
variable (hbad : ∀ a ∈ bad, ∃ bs, a = .data bs ∧ bs.length = want.length ∧ bs ≠ want)
include hbad

theorem sendLoop_of_confirmation (hlen : bad.length ≤ 2) (h : s.answers = bad ++ .data want :: rest) :
    sendLoop cfg frame want m cfg.retries s = (.ok, exchanged frame want.length m (bad ++ [.data want]) rest s) := by
  have hretries : cfg.retries = bad.length + (2 - bad.length + 1) := by rw [cfg_retries]; omega
  rw [hretries, sendLoop_after_bad hbad h, sendLoop_of_want (receive_transmit rfl (clampAnswer_exact want)),
    exchanged_exchanged]

theorem sendLoop_of_late (hlen : bad.length ≤ 2) (h : s.answers = bad ++ .timeout :: rest) :
    sendLoop cfg frame want m cfg.retries s = (.unreachable, exchanged frame want.length m (bad ++ [.timeout]) rest s) := by
  have hretries : cfg.retries = bad.length + (2 - bad.length + 1) := by rw [cfg_retries]; omega
  rw [hretries, sendLoop_after_bad hbad h, sendLoop_of_timeout (receive_transmit rfl rfl), exchanged_exchanged]

theorem sendLoop_of_three_bad (hlen : bad.length = 3) (h : s.answers = bad ++ rest) :
    sendLoop cfg frame want m cfg.retries s = (.unreachable, exchanged frame want.length m bad rest s) := by
  have hretries : cfg.retries = bad.length + 0 := hlen.symm
  rw [hretries, sendLoop_after_bad hbad h]
  rfl

end

/-- The state a command leaves after the wake answers `asW` and the confirmations `asC`. -/
def commanded (op : SerialOp) (asW asC rest : List RxAnswer) (s : State) : State :=
  exchanged (frameOf op) (confirmation op).length (confirmTimeout op) asC rest
    { exchanged wakeReq 2 cfg.tAck asW (asC ++ rest) { s with seq := .wake } with seq := .send }

theorem channelEvents_commanded (op : SerialOp) (asW asC rest : List RxAnswer) (s : State) :
    channelEvents (commanded op asW asC rest s) = channelEvents s + (2 * asW.length + 2 * asC.length) :=
  calc channelEvents (commanded op asW asC rest s)
      = channelEvents (exchanged wakeReq 2 cfg.tAck asW (asC ++ rest) s) + 2 * asC.length :=
        channelEvents_exchanged _ _ _ _ _ _
    _ = channelEvents s + 2 * asW.length + 2 * asC.length := by rw [channelEvents_exchanged]
    _ = _ := Nat.add_assoc _ _ _

/-- The operation ends with its command's result `r` after `n` steps: the answers up to `rest` are used up, and TXLOG is
`log`. -/
def CommandEnds (i : Instr) (s : State) (r : CmdResult) (n : Nat) (rest : List RxAnswer) (log : List (List Byte)) : Prop :=
  ∃ t u, exec i s = .next t ∧ runSteps n t = .next u ∧
    u = { s with
      seq := if r.code = .ok then .done else .aborted, code := r.code, done := true, answers := rest, rxLog := u.rxLog
      txLog := log }

section
variable {r : CmdResult} {w c : Nat} {asW asC badW : List RxAnswer}
variable (hop : (∃ n, op = .setper n) ∨ op = .clrlog) (hready : Ready s)
include hop hready

/-- One step for every event the command puts on the channel. -/
theorem commandEnds_of_command {log : List (List Byte)} (hcommand : commandOfOp op s = (r, s'))
    (hs' : s' = { s with seq := s'.seq, answers := rest, rxLog := s'.rxLog, txLog := log })
    (hn : channelEvents s' = channelEvents s + n) : CommandEnds op.instr s r n rest log := by
  obtain ⟨htask, habort, hin⟩ := hready
  have hcleared : cleared op s = s := by rcases hop with ⟨n, rfl⟩ | rfl <;> rfl
  have hstart := channelEvents_start op (newTask cfg op) (s := s)
  have hrun := command_runs hop (s := s) ⟨habort, hin⟩
  rw [hcleared] at hstart
  rw [hcommand] at hrun
  refine ⟨_, complete r.code s', exec_serial op s, ?_, ?_⟩
  · rw [hcleared]
    exact hrun.runSteps_eq (by rw [hstart]; exact hn)
  · rw [complete_eq _ ((congrArg State.task hs').trans htask) ((congrArg State.abortReq hs').trans habort), hs']

theorem commandEnds_of_commanded (hcommand : commandOfOp op s = (r, commanded op asW asC rest s)) (hw : asW.length = w)
    (hc : asC.length = c) (hn : 2 * w + 2 * c = n) :
    CommandEnds op.instr s r n rest (s.txLog ++ List.replicate w wakeReq ++ List.replicate c (frameOf op)) := by
  subst hw hc hn
  exact commandEnds_of_command hop hready hcommand rfl (channelEvents_commanded op asW asC rest s)

/-- The device does not wake up (R236). -/
theorem commandEnds_of_no_wake (hbad : ∀ a ∈ badW, clampAnswer 2 a ≠ .data wakeAck) (hlen : badW.length = 3)
    (h : s.answers = badW ++ rest) :
    CommandEnds op.instr s .unreachable 6 rest (s.txLog ++ List.replicate 3 wakeReq) := by
  have hcommand := commandOfOp_of_unreachable op (wakeProc_of_three_bad hbad hlen h)
  refine commandEnds_of_command hop hready hcommand ?_ ?_
  · rw [← hlen]
    rfl
  · rw [channelEvents_exchanged, hlen]
    rfl

end

theorem frameOf_setper (n : Nat) :
    frameOf (.setper n) = [0x53, 0x45, 0x54, 0x50, 0x45, 0x52, 0x20] ++ dec n ++ [0x20, 0x0A] := by
  simp [frameOf, commandOf, cmdframe, textSetper]

end

/-- Settles O35: a command that wakes the device ends as its confirmations say, and one that does not ends there. -/
theorem commandEndings : Obligations.CommandEndings := by
  intro i F want hcase
  obtain ⟨op, hop, rfl, rfl, rfl⟩ : ∃ op : SerialOp, ((∃ n, op = .setper n) ∨ op = .clrlog) ∧ op.instr = i ∧
      frameOf op = F ∧ confirmation op = want := by
    rcases hcase with ⟨n, -, rfl, rfl, rfl⟩ | ⟨rfl, rfl, rfl⟩
    · exact ⟨.setper n, .inl ⟨n, rfl⟩, rfl, frameOf_setper n, rfl⟩
    · exact ⟨.clrlog, .inr rfl, rfl, rfl, rfl⟩
  intro s badW badC rest hready hbadW hbadC
  have hawake {as : List RxAnswer} (hlen : badW.length ≤ 2) (h : s.answers = badW ++ .data wakeAck :: as) :=
    commandOfOp_of_awake op (wakeProc_of_ack hbadW hlen h)
  have hsnoc (as : List RxAnswer) (a : RxAnswer) : (as ++ [a]).length = as.length + 1 := List.length_append
  refine ⟨fun hw hc h => ?_, fun hw h => ?_, fun hw hc h => ?_, fun hw hc h => ?_⟩
  · have hcommand := (hawake hw h).trans (sendLoop_of_confirmation hbadC hc rfl)
    exact commandEnds_of_commanded (n := 2 * badW.length + 2 * badC.length + 4) hop hready hcommand (hsnoc _ _)
      (hsnoc _ _) (by omega)
  · exact commandEnds_of_no_wake hop hready hbadW hw h
  · have hcommand := (hawake hw h).trans (sendLoop_of_late hbadC hc rfl)
    exact commandEnds_of_commanded (n := 2 * badW.length + 2 * badC.length + 4) hop hready hcommand (hsnoc _ _)
      (hsnoc _ _) (by omega)
  · have hcommand := (hawake hw h).trans (sendLoop_of_three_bad hbadC hc rfl)
    exact commandEnds_of_commanded (n := 2 * badW.length + 8) hop hready hcommand (hsnoc _ _) hc (by omega)

end Sys2Proof.Proofs

/-!
Pages, slots and the selection of the newest record (43_download.md R276, R277, R282).
-/
namespace Sys2Proof.Proofs

open Sys2Proof.Machine Sys2Proof.Laws

/-! ## The walk of a page (43_download.md R276) -/

/-- The slots are visited in order, each at its place in the blob. -/
theorem walkSlots_eq_foldl (c : Config) (f : List Byte) (s n : Nat) (x : Rev × List ArcEntry) :
    walkSlots c f s n x = (List.range' s n).foldl (fun x s => slotRecord c f (1 + c.arcSize * s) x) x := by
  induction n generalizing s x with
  | zero => rfl
  | succ n ih => rw [walkSlots_succ, ih, List.range'_succ, List.foldl_cons]

/-- Settles O41: the slots not before the first one are an interval, which is empty when the first is past the last. -/
theorem blobWalk : Obligations.BlobWalk := by
  intro f i offset x
  have hslots (s₀ : Nat) : (List.range 5).filter (fun s => decide (s₀ ≤ s)) = List.range' s₀ (5 - s₀) := by
    rw [← List.Ico.zero_bot, List.Ico.filter_le, Nat.zero_max, List.Ico]
  rw [hslots, walkPage, walkSlots_eq_foldl]
  rfl

/-! ## One slot (43_download.md R277) -/

section
variable {c : Config} {rev : Rev} (f : List Byte) (q : Nat)

/-- A record whose layout begins with the two stamps holds them raw (41_record_codec.md R164). -/
theorem stampOf_decodePrefix_append (h : LayoutsOk c) (tail : Record) :
    stampOf (decodePrefix c f q ++ tail) = (le16 f q, le16 f (q + 2)) := by
  have hprefix : c.layoutPrefix =
      ⟨.dateStamp, .u16, .adate⟩ :: ⟨.timeStamp, .u16, .atime⟩ :: c.layoutPrefix.drop 2 := by
    conv_lhs => rw [← List.take_append_drop 2 c.layoutPrefix, h.stamps_first]
    rfl
  rw [decodePrefix, hprefix, decodeLayout, decodeLayout, decodeEntry_adate, decodeEntry_atime]
  rfl

theorem stampOf_decodeArc (h : LayoutsOk c) (r : ArcRev) :
    stampOf (decodeArc c r f q).record = (le16 f q, le16 f (q + 2)) := by
  cases r
  · exact stampOf_decodePrefix_append f q h _
  · exact stampOf_decodePrefix_append f q h _

theorem isSentinel_eq_true {r : Record} : isSentinel c r = true ↔ stampOf r = (c.sentinel, c.sentinel) := by
  simp [isSentinel, stampOf]

theorem slotRecord_of_sentinel (h : LayoutsOk c) (hs : le16 f q = c.sentinel ∧ le16 f (q + 2) = c.sentinel)
    (x : Rev × List ArcEntry) : (slotRecord c f q x).2 = x.2 :=
  if_pos (isSentinel_eq_true.mpr (by rw [stampOf_decodeArc f q h, hs.1, hs.2]))

theorem slotRecord_of_used (h : LayoutsOk c) (hs : ¬ (le16 f q = c.sentinel ∧ le16 f (q + 2) = c.sentinel))
    (x : Rev × List ArcEntry) :
    (slotRecord c f q x).2 = x.2 ++ [decodeArc c (slotRecord c f q x).1.layout f q] :=
  if_neg fun hsent => hs (by
    have hstamps := isSentinel_eq_true.mp hsent
    rwa [stampOf_decodeArc f q h, Prod.mk.injEq] at hstamps)

end

/-- Settles O42: the flag after the slot is the probe's, it selects the layout, and the layout begins with the stamps. -/
theorem slotRule : Obligations.SlotRule := by
  intro c f q rev rev' l hc hknown hunknown
  have hrev : (slotRecord c f q (rev, l)).1 = rev' := by
    rw [slotRecord_rev]
    by_cases h : rev = .unknown
    · subst h
      exact (hunknown rfl).symm
    · rw [probe_of_known _ h, hknown h]
  refine ⟨hrev, fun hs => slotRecord_of_sentinel f q hc hs _, fun hs => ⟨_, slotRecord_of_used f q hc hs _,
    stampOf_decodeArc f q hc _, ?_, ?_⟩⟩
  · rw [hrev]
    rintro rfl
    rfl
  · rw [hrev]
    rintro rfl
    rfl

/-! ## The selection (43_download.md R282) -/

/-- A stamp pair as one number: the order of R282 is the order of these numbers. -/
def stampKey (x : Stamp) : Nat := x.1.toNat * 2 ^ 16 + x.2.toNat

theorem newer_iff_stampKey_lt {x y : Stamp} : Newer x y ↔ stampKey y < stampKey x := by
  have hx := x.2.isLt
  have hy := y.2.isLt
  rw [Newer, stampKey, stampKey, ← BitVec.toNat_inj]
  omega

/-- What the search has found after it has seen the records `l`. -/
def Found (wm : Stamp) (l : List ArcEntry) : Option (Nat × ArcEntry) → Prop
  | none => ∀ e ∈ l, ¬ Newer (stampOf e.record) wm
  | some (j, e) => Selected wm l j e

section
variable {wm : Stamp} {l : List ArcEntry} {best : Option (Nat × ArcEntry)} {e : ArcEntry} {j : Nat}

/-- The bar is the watermark or higher, and no record seen is above it. -/
theorem Found.le_bar (h : Found wm l best) :
    stampKey wm ≤ stampKey (barOf wm best) ∧ ∀ x ∈ l, stampKey (stampOf x.record) ≤ stampKey (barOf wm best) := by
  cases best with
  | none => exact ⟨Nat.le_refl _, fun x hx => Nat.not_lt.mp (mt newer_iff_stampKey_lt.mpr (h x hx))⟩
  | some b =>
    obtain ⟨-, hnew, hmax, -⟩ := h
    exact ⟨(newer_iff_stampKey_lt.mp hnew).le, fun x hx => Nat.not_lt.mp (mt newer_iff_stampKey_lt.mpr (hmax x hx))⟩

/-- A record above the bar is selected, for it is newer than every record before it. -/
theorem Found.selects_last (h : Found wm l best) (hlt : stampKey (barOf wm best) < stampKey (stampOf e.record)) :
    Selected wm (l ++ [e]) l.length e := by
  obtain ⟨hwm, hbar⟩ := h.le_bar
  refine ⟨List.getElem?_concat_length, newer_iff_stampKey_lt.mpr (by omega), fun x hx => ?_, fun k x hk hx => ?_⟩
  · rw [newer_iff_stampKey_lt]
    rcases List.mem_append.mp hx with hx | hx
    · have := hbar x hx
      omega
    · rw [List.mem_singleton.mp hx]
      exact Nat.lt_irrefl _
  · rw [List.getElem?_append_left hk] at hx
    have := hbar x (List.mem_of_getElem? hx)
    exact newer_iff_stampKey_lt.mpr (by omega)

/-- A record that does not pass the bar changes nothing. -/
theorem Found.keeps_best (h : Found wm l best) (hle : stampKey (stampOf e.record) ≤ stampKey (barOf wm best)) :
    Found wm (l ++ [e]) best := by
  cases best with
  | none =>
    intro x hx
    rcases List.mem_append.mp hx with hx | hx
    · exact h x hx
    · rw [List.mem_singleton.mp hx, newer_iff_stampKey_lt]
      exact Nat.not_lt.mpr hle
  | some b =>
    obtain ⟨hget, hnew, hmax, hfirst⟩ := h
    have hj : b.1 < l.length := (List.getElem?_eq_some_iff.mp hget).1
    refine ⟨by rwa [List.getElem?_append_left hj], hnew, fun x hx => ?_, fun k x hk hx => ?_⟩
    · rcases List.mem_append.mp hx with hx | hx
      · exact hmax x hx
      · rw [List.mem_singleton.mp hx, newer_iff_stampKey_lt]
        exact Nat.not_lt.mpr hle
    · exact hfirst k x hk (by rwa [List.getElem?_append_left (by omega)] at hx)

theorem Found.newestFrom (h : Found wm l best) (es : List ArcEntry) :
    Found wm (l ++ es) (newestFrom wm l.length best es) := by
  induction es generalizing l best with
  | nil => rwa [List.append_nil]
  | cons e es ih =>
    have hstep : Found wm (l ++ [e])
        (if stampLt (barOf wm best) (stampOf e.record) then some (l.length, e) else best) := by
      split
      case isTrue hlt => exact h.selects_last (newer_iff_stampKey_lt.mp ((stampLt_iff_newer _ _).mp hlt))
      case isFalse hlt =>
        rw [stampLt_iff_newer, newer_iff_stampKey_lt] at hlt
        exact h.keeps_best (Nat.not_lt.mp hlt)
    have hrest := ih hstep
    rwa [List.length_append, ← List.append_cons] at hrest

theorem found_newest (wm : Stamp) (l : List ArcEntry) : Found wm l (newest wm l) :=
  Found.newestFrom (l := []) (best := none) (fun _ h => absurd h List.not_mem_nil) l

/-- No record selected comes before another one. -/
theorem not_lt_of_selected {j' : Nat} {e' : ArcEntry} (h : Selected wm l j e) (h' : Selected wm l j' e') : ¬ j < j' := by
  obtain ⟨hget, -, hmax, -⟩ := h
  obtain ⟨hget', -, -, hfirst'⟩ := h'
  exact fun hlt => hmax e' (List.mem_of_getElem? hget') (hfirst' j e hlt hget)

theorem selected_unique {j' : Nat} {e' : ArcEntry} (h : Selected wm l j e) (h' : Selected wm l j' e') :
    j = j' ∧ e = e' := by
  obtain rfl : j = j' := Nat.le_antisymm (Nat.not_lt.mp (not_lt_of_selected h' h)) (Nat.not_lt.mp (not_lt_of_selected h h'))
  exact ⟨rfl, Option.some.inj (h.1.symm.trans h'.1)⟩

theorem newer_exists_of_selected (h : Selected wm l j e) : ¬ ∀ e ∈ l, ¬ Newer (stampOf e.record) wm := fun hnone =>
  hnone e (List.mem_of_getElem? h.1) h.2.1

theorem newest_eq_some_iff : newest wm l = some (j, e) ↔ Selected wm l j e := by
  have hfound := found_newest wm l
  cases hn : newest wm l with
  | none =>
    rw [hn] at hfound
    exact ⟨fun h => (nomatch h), fun h => absurd hfound (newer_exists_of_selected h)⟩
  | some b =>
    rw [hn] at hfound
    refine ⟨?_, fun h => ?_⟩
    · rintro ⟨⟩
      exact hfound
    · obtain ⟨rfl, rfl⟩ := selected_unique hfound h
      rfl

theorem newest_eq_none_iff : newest wm l = none ↔ ∀ e ∈ l, ¬ Newer (stampOf e.record) wm := by
  have hfound := found_newest wm l
  cases hn : newest wm l with
  | none =>
    rw [hn] at hfound
    exact ⟨fun _ => hfound, fun _ => rfl⟩
  | some b =>
    rw [hn] at hfound
    exact ⟨fun h => (nomatch h), fun h => absurd h (newer_exists_of_selected hfound)⟩

end

/-- Settles O43: what the search has found after each record it has seen determines the selection. -/
theorem newestSelection : Obligations.NewestSelection := fun _ _ =>
  ⟨fun _ _ => newest_eq_some_iff, newest_eq_none_iff⟩

end Sys2Proof.Proofs

/-!
POLL_RT against a list of answers: the command is confirmed once, and the reads of the snapshot follow it (43_download.md R286,
R287).
-/
namespace Sys2Proof.Proofs

open Sys2Proof.Machine Sys2Proof.Laws

/-! ## Runs with retry pauses -/

/-- The machine runs from `a` to `b` with `k` retry pauses, and every other step puts one event on the channel. -/
def RunsPausing (k : Nat) (a b : State) : Prop := ∃ n, runSteps n a = .next b ∧ channelEvents b + k = channelEvents a + n

section
variable {a b d s : State} {k k' n : Nat}

theorem Runs.pausing (h : Runs a b) : RunsPausing 0 a b := h

theorem RunsPausing.refl (a : State) : RunsPausing 0 a a := (Runs.refl a).pausing

theorem RunsPausing.trans (h : RunsPausing k a b) (h' : RunsPausing k' b d) : RunsPausing (k + k') a d := by
  obtain ⟨m, hm, hem⟩ := h
  obtain ⟨n, hn, hen⟩ := h'
  exact ⟨m + n, by rw [runSteps_add hm, hn], by omega⟩

/-- The events on the channel and the pauses count the steps. -/
theorem RunsPausing.runSteps_eq (h : RunsPausing k a b) (hn : channelEvents b + k = channelEvents a + n) :
    runSteps n a = .next b := by
  obtain ⟨m, hm, hem⟩ := h
  rwa [show n = m by omega]

/-- A retry pause ends, and the channel has seen nothing of it. -/
theorem runsPausing_pause (h : Quiet s) (p : PausePoint) (t : Task) :
    RunsPausing 1 (enter (.pause p) t s)
      (afterPause { t with point := .pause p } p (busyWith { t with point := .pause p } s)) := by
  rw [enter_of_quiet h, ← advance_of_pause (c := cfg) (s := busyWith { t with point := .pause p } s) rfl rfl]
  refine ⟨1, runSteps_one_of_quiet h, ?_⟩
  rw [advance_of_pause (c := cfg) (s := busyWith { t with point := .pause p } s) rfl rfl,
    channelEvents_eq (afterPause_channel _ _ _)]

end

/-! ## A command that the device confirms (42_handshake.md R236) -/

section
variable {op : SerialOp} {n : Nat} {m : Millis} {a : RxAnswer} {bs : List Byte} {badW badC rest : List RxAnswer} {s : State}

/-- The state after an Rx `(n, m)` that the device answers with `a`. -/
def received (n : Nat) (m : Millis) (a : RxAnswer) (rest : List RxAnswer) (s : State) : State :=
  { s with answers := rest, rxLog := s.rxLog ++ [rxRecord n m a] }

theorem receive_of_exact (ha : clampAnswer n a = a) (h : s.answers = a :: rest) :
    receive n m s = (a, received n m a rest s) := by
  rw [receive_cons h, ha, received, rxRecord, ha]

theorem clampAnswer_of_length (h : bs.length = n) : clampAnswer n (.data bs) = .data bs := h ▸ clampAnswer_exact bs

theorem commandOfOp_of_confirmed (hbadW : ∀ a ∈ badW, clampAnswer 2 a ≠ .data wakeAck) (hw : badW.length ≤ 2)
    (hbadC : ∀ a ∈ badC, ∃ bs, a = .data bs ∧ bs.length = (confirmation op).length ∧ bs ≠ confirmation op)
    (hc : badC.length ≤ 2) (h : s.answers = badW ++ .data wakeAck :: (badC ++ .data (confirmation op) :: rest)) :
    commandOfOp op s = (.ok, commanded op (badW ++ [.data wakeAck]) (badC ++ [.data (confirmation op)]) rest s) := by
  rw [commandOfOp_of_awake op (wakeProc_of_ack hbadW hw h), sendLoop_of_confirmation hbadC hc rfl, commanded,
    List.append_assoc]
  rfl

end

/-! ## The reads of the snapshot (43_download.md R287) -/

section
variable {t : Task} {s : State} {a : RxAnswer} {f : List Byte} {bad : List (List Byte)} {rest : List RxAnswer}

/-- The state after reads of the snapshot with the answers `as`. -/
def snapshotsRead (as rest : List RxAnswer) (s : State) : State :=
  { s with answers := rest, rxLog := s.rxLog ++ as.map (rxRecord cfg.snapSize cfg.tData) }

theorem snapshotsRead_nil (h : s.answers = rest) : snapshotsRead [] rest s = s := by
  subst h
  simp [snapshotsRead]

/-- A read that ends with the answer `a`. -/
theorem runs_snapshot (hs : Quiet s) (ha : clampAnswer cfg.snapSize a = a) (h : s.answers = a :: rest) :
    ∃ t₀, Runs (startSnapshotRead t s) (afterRx cfg (answered .snapshot a t) .snapshot a
      (busyWith t₀ (received cfg.snapSize cfg.tData a rest { s with seq := .dataRead }))) :=
  ⟨_, runs_rx (s := { s with seq := .dataRead }) (p := .snapshot) hs (receive_of_exact ha h)⟩

theorem afterRx_snapshot_of_valid (hf : verify cfg f = true) :
    afterRx cfg t .snapshot (.data f) s = finish .ok { s with result := .snap (decodeSnap cfg f 0) } := by
  simp only [afterRx, checkFrame, hf, if_true]

theorem afterRx_snapshot_of_bad (hf : verify cfg f = false) (hkr : t.kr < 3) :
    afterRx cfg t .snapshot (.data f) s = startPause .snapshot { t with pcrc := crc cfg f } s := by
  simp only [afterRx, checkFrame, hf, Bool.false_eq_true, if_false, cfg_retries, hkr, if_true]

theorem afterRx_snapshot_of_last_bad (hf : verify cfg f = false) (hkr : ¬ t.kr < 3) :
    afterRx cfg t .snapshot (.data f) s = finish .deviceUnreachable s := by
  simp only [afterRx, checkFrame, hf, Bool.false_eq_true, if_false, cfg_retries, hkr]

/-- A bad frame below the limit of tries is followed by a pause and the next read. -/
theorem runs_snapshot_retry (hs : Quiet s) (hf : f.length = 99 ∧ verify cfg f = false) (hkr : t.kr < 3)
    (h : s.answers = .data f :: rest) :
    ∃ t', t'.kr = t.kr + 1 ∧
      RunsPausing 1 (startSnapshotRead t s) (startSnapshotRead t' (snapshotsRead [.data f] rest s)) := by
  obtain ⟨t₀, hrun⟩ := runs_snapshot (t := t) hs (clampAnswer_of_length hf.1) h
  rw [afterRx_snapshot_of_bad (t := answered .snapshot (.data f) t) hf.2 hkr] at hrun
  exact ⟨_, rfl, hrun.pausing.trans (runsPausing_pause (s := { received _ _ _ rest s with seq := .pause }) hs .snapshot _)⟩

theorem runs_snapshot_retries (hs : Quiet s) (hbad : ∀ f ∈ bad, f.length = 99 ∧ verify cfg f = false)
    (hkr : t.kr + bad.length ≤ 3) (h : s.answers = bad.map .data ++ rest) :
    ∃ t', t'.kr = t.kr + bad.length ∧
      RunsPausing bad.length (startSnapshotRead t s) (startSnapshotRead t' (snapshotsRead (bad.map .data) rest s)) := by
  induction bad generalizing t s with
  | nil =>
    rw [List.map_nil, snapshotsRead_nil (rest := rest) h]
    exact ⟨t, rfl, .refl _⟩
  | cons f bad ih =>
    rw [List.length_cons] at hkr
    obtain ⟨t₁, hkr₁, hrun⟩ := runs_snapshot_retry (t := t) hs (hbad f List.mem_cons_self) (by omega) h
    obtain ⟨t₂, hkr₂, hruns⟩ := ih (t := t₁) (s := snapshotsRead [.data f] (bad.map .data ++ rest) s) hs
      (fun x hx => hbad x (List.mem_cons_of_mem f hx)) (by omega) rfl
    have hsplit : snapshotsRead (bad.map .data) rest (snapshotsRead [.data f] (bad.map .data ++ rest) s) =
        snapshotsRead ((f :: bad).map .data) rest s := by
      simp [snapshotsRead]
    rw [hsplit] at hruns
    refine ⟨t₂, by rw [List.length_cons]; omega, ?_⟩
    rw [List.length_cons, Nat.add_comm]
    exact hrun.trans hruns

end

/-! ## POLL_RT (43_download.md R286) -/

/-- What POLL_RT transmits: one line feed and, once, the command `LOOP 1`. -/
def loopSent : List (List Byte) := [[0x0A], [0x4C, 0x4F, 0x4F, 0x50, 0x20, 0x31, 0x20, 0x0A]]

section
variable {s : State} {bad : List (List Byte)} {a : RxAnswer} {rest : List RxAnswer} {code : Code} {r : Result} {n : Nat}

/-- The state after the confirmed command of POLL_RT, the answers `rest` left. -/
def loopConfirmed (rest : List RxAnswer) (s : State) : State :=
  commanded .pollRt [.data wakeAck] [.data ackToken] rest (cleared .pollRt s)

/-- The confirmed command leads to the first read. -/
theorem pollRt_runs_to_reads (hs : Quiet s) (h : s.answers = .data wakeAck :: .data ackToken :: rest) :
    ∃ t, t.kr = 1 ∧
      Runs (startWake (newTask cfg .pollRt) (cleared .pollRt s)) (startSnapshotRead t (loopConfirmed rest s)) := by
  obtain ⟨-, t, t₀, ⟨hop, -⟩, hrun⟩ := command_returns (op := .pollRt) (t := newTask cfg .pollRt)
    (s := cleared .pollRt s) SerialOp.noConfusion ⟨rfl, rfl, rfl⟩ hs
  have hcommand : commandOfOp .pollRt (cleared .pollRt s) = (.ok, loopConfirmed rest s) :=
    commandOfOp_of_confirmed (badW := []) (badC := []) (by simp) (by simp) (by simp) (by simp) h
  rw [hcommand] at hrun
  simp only [commandDone, hop] at hrun
  exact ⟨_, rfl, hrun⟩

/-- The state when the snapshot has been read with the answers `as`, the last of which is `a`. -/
def loopRead (as : List RxAnswer) (a : RxAnswer) (rest : List RxAnswer) (s : State) : State :=
  received cfg.snapSize cfg.tData a rest
    { snapshotsRead as (a :: rest) (loopConfirmed (as ++ a :: rest) s) with seq := .dataRead }

theorem loopRead_eq (as : List RxAnswer) (a : RxAnswer) (rest : List RxAnswer) (s : State) :
    loopRead as a rest s = { s with
      result := .none, seq := .dataRead, answers := rest, rxLog := (loopRead as a rest s).rxLog
      txLog := s.txLog ++ loopSent } := by
  have hlog : (loopRead as a rest s).txLog = s.txLog ++ loopSent := List.append_assoc _ _ _
  rw [← hlog]
  rfl

theorem channelEvents_loopRead (as : List RxAnswer) (a : RxAnswer) (rest : List RxAnswer) (s : State) :
    channelEvents (loopRead as a rest s) = channelEvents s + (as.length + 5) := by
  have hcommand := channelEvents_commanded .pollRt [.data wakeAck] [.data ackToken] (as ++ a :: rest) (cleared .pollRt s)
  have hcleared := channelEvents_eq (cleared_channel .pollRt s)
  simp only [channelEvents, loopRead, received, snapshotsRead, loopConfirmed, List.length_append, List.length_map,
    List.length_singleton] at hcommand hcleared ⊢
  omega

/-- The answer `a` of read `n` finishes the operation. -/
def EndsRead (a : RxAnswer) (n : Nat) (code : Code) (r : Result) : Prop :=
  ∀ t s, t.kr = n → s.result = .none → afterRx cfg t .snapshot a s = finish code { s with result := r }

/-- POLL_RT ends at the read whose answer `a` finishes it. -/
theorem pollRt_ends (hready : Ready s) (hbad : ∀ f ∈ bad, f.length = 99 ∧ verify cfg f = false) (hlen : bad.length ≤ 2)
    (ha : clampAnswer cfg.snapSize a = a) (hend : EndsRead a (bad.length + 1) code r)
    (h : s.answers = .data wakeAck :: .data ackToken :: (bad.map .data ++ a :: rest)) (hn : 2 * bad.length + 5 = n) :
    ∃ t u, exec .pollRt s = .next t ∧ runSteps n t = .next u ∧
      u = { s with
        result := r, seq := if code = .ok then .done else .aborted, code := code, done := true, answers := rest
        rxLog := u.rxLog, txLog := s.txLog ++ loopSent } := by
  obtain ⟨htask, habort, hin⟩ := hready
  have hs : Quiet s := ⟨habort, hin⟩
  obtain ⟨t₁, hkr₁, hcommand⟩ := pollRt_runs_to_reads hs h
  obtain ⟨t₂, hkr₂, hretries⟩ := runs_snapshot_retries (t := t₁) (s := loopConfirmed _ s) hs hbad (by omega) rfl
  obtain ⟨t₀, hread⟩ :=
    runs_snapshot (t := t₂) (s := snapshotsRead (bad.map .data) (a :: rest) (loopConfirmed _ s)) hs ha rfl
  have hkr : (answered .snapshot a t₂).kr = bad.length + 1 := hkr₂.trans (by omega)
  rw [hend _ _ hkr rfl] at hread
  have hrun := (hcommand.pausing.trans hretries).trans hread.pausing
  have hev : channelEvents (finish code { busyWith t₀ (loopRead (bad.map .data) a rest s) with result := r }) =
      channelEvents s + (bad.length + 5) :=
    (channelEvents_loopRead (bad.map .data) a rest s).trans (by rw [List.length_map])
  have hu := (finish_busyWith code t₀ { loopRead (bad.map .data) a rest s with result := r }).trans
    (complete_eq code htask habort)
  refine ⟨_, _, exec_serial .pollRt s, hrun.runSteps_eq ?_, hu.trans ?_⟩
  · rw [channelEvents_start .pollRt]
    exact (congrArg (· + _) hev).trans (by omega)
  · rw [loopRead_eq]
    rfl

end

/-- Settles O36: the bad frames before the last read each cost a pause, and the answer of the last read ends the operation. -/
theorem pollRtReads : Obligations.PollRtReads := by
  intro s bad rest hready hbad
  refine ⟨fun f hlen hf hvalid h => ?_, fun hlen h => ?_, fun hlen h => ?_⟩
  · exact pollRt_ends (code := .ok) hready hbad hlen (clampAnswer_of_length hf)
      (fun t s _ _ => afterRx_snapshot_of_valid hvalid) h rfl
  · obtain ⟨f₁, f₂, f, rfl⟩ := List.length_eq_three.mp hlen
    obtain ⟨hf, hinvalid⟩ := hbad f (List.mem_append_right [f₁, f₂] List.mem_cons_self)
    refine pollRt_ends (code := .deviceUnreachable) (bad := [f₁, f₂]) hready
      (fun x hx => hbad x (List.mem_append_left [f] hx)) (Nat.le_refl 2) (clampAnswer_of_length hf) (fun t s hkr hres => ?_) h rfl
    rw [afterRx_snapshot_of_last_bad hinvalid (by rw [hkr]; exact Nat.lt_irrefl 3), ← hres]
  · refine pollRt_ends (code := .deviceUnreachable) hready hbad hlen rfl (fun t s _ hres => ?_) h rfl
    rw [← hres]
    rfl

end Sys2Proof.Proofs

/-!
Download attempts against a list of answers, and how DOWNLOAD and POLL_ARC end (43_download.md R270 to R285).
-/
namespace Sys2Proof.Proofs

open Sys2Proof.Machine Sys2Proof.Laws

/-! ## What a part of an attempt writes -/

/-- From `s` to `s'` a part of a download attempt has transmitted `tx` and taken `n` answers, so that `rest` is left. PROG is
`prog` and the revision flag `rev`; nothing else but SEQ has changed. -/
def Advances (s s' : State) (prog : Half × Half) (rev : Rev) (rest : List RxAnswer) (tx : List (List Byte)) (n : Nat) : Prop :=
  ∃ seq rx, rx.length = n ∧ s' = { s with
    seq := seq, pages := prog.1, pidx := prog.2, rev := rev, answers := rest, txLog := s.txLog ++ tx
    rxLog := s.rxLog ++ rx }

section
variable {s s' s'' : State} {prog prog' : Half × Half} {rev rev' : Rev} {rest rest' : List RxAnswer}
variable {tx tx' : List (List Byte)} {n n' : Nat}

theorem Advances.trans (h : Advances s s' prog rev rest tx n) (h' : Advances s' s'' prog' rev' rest' tx' n') :
    Advances s s'' prog' rev' rest' (tx ++ tx') (n + n') := by
  obtain ⟨seq, rx, rfl, rfl⟩ := h
  obtain ⟨seq', rx', rfl, rfl⟩ := h'
  exact ⟨seq', rx ++ rx', List.length_append, by simp only [List.append_assoc]⟩

theorem Advances.prog_eq (h : Advances s s' prog rev rest tx n) : (s'.pages, s'.pidx) = prog := by
  obtain ⟨seq, rx, -, rfl⟩ := h
  rfl

theorem Advances.rev_eq (h : Advances s s' prog rev rest tx n) : s'.rev = rev := by
  obtain ⟨seq, rx, -, rfl⟩ := h
  rfl

theorem Advances.answers_eq (h : Advances s s' prog rev rest tx n) : s'.answers = rest := by
  obtain ⟨seq, rx, -, rfl⟩ := h
  rfl

theorem Advances.wm_eq (h : Advances s s' prog rev rest tx n) : (s'.wmDate, s'.wmTime) = (s.wmDate, s.wmTime) := by
  obtain ⟨seq, rx, -, rfl⟩ := h
  rfl

theorem Advances.watermarkFrame_eq (h : Advances s s' prog rev rest tx n) :
    watermarkFrame cfg s'.wmDate s'.wmTime = watermarkFrame cfg s.wmDate s.wmTime := by
  obtain ⟨hdate, htime⟩ := Prod.mk.inj h.wm_eq
  rw [hdate, htime]

theorem Advances.channelEvents_eq (h : Advances s s' prog rev rest tx n) :
    channelEvents s' = channelEvents s + (tx.length + n) := by
  obtain ⟨seq, rx, rfl, rfl⟩ := h
  simp only [channelEvents, List.length_append]
  omega

theorem advances_refl (h : s.answers = rest) : Advances s s (s.pages, s.pidx) s.rev rest [] 0 :=
  ⟨s.seq, [], rfl, by simp only [List.append_nil, ← h]⟩

end

/-! ## The pages (43_download.md R275 to R278) -/

section
variable {offset i n : Nat} {l : List ArcEntry} {f bad : List Byte} {fs : List (List Byte)} {rest : List RxAnswer} {s : State}

/-- The state after page `i` has been read. -/
def pageRead (i : Nat) (f : List Byte) (rest : List RxAnswer) (s : State) : State :=
  received cfg.pageSize cfg.tData (.data f) rest (readingPage i s)

/-- The state after page `i` has been read, acknowledged and walked, the revision flag `rev`. -/
def pageWalked (i : Nat) (f : List Byte) (rest : List RxAnswer) (rev : Rev) (s : State) : State :=
  { transmit ackToken (pageRead i f rest s) with rev := rev }

theorem receive_page (hf : f.length = 267) (h : s.answers = .data f :: rest) :
    receive cfg.pageSize cfg.tData (readingPage i s) = (.data f, pageRead i f rest s) :=
  receive_of_exact (s := readingPage i s) (clampAnswer_of_length hf) h

theorem pagesLoop_valid_page (hf : f.length = 267 ∧ verify cfg f = true) (h : s.answers = .data f :: rest) :
    pagesLoop cfg offset (n + 1) i l s =
      pagesLoop cfg offset n (i + 1) (walkPage cfg f i offset (s.rev, l)).2
        (pageWalked i f rest (walkPage cfg f i offset (s.rev, l)).1 s) :=
  pagesLoop_of_valid (receive_page hf.1 h) hf.2

theorem pagesLoop_bad_page (hf : f.length = 267 ∧ verify cfg f = false) (h : s.answers = .data f :: rest) :
    pagesLoop cfg offset (n + 1) i l s = (.noResult, transmit escToken (pageRead i f rest s)) :=
  pagesLoop_of_bad (receive_page hf.1 h) hf.2

theorem pageWalked_advances (i : Nat) (f : List Byte) (rest : List RxAnswer) (rev : Rev) (s : State) :
    Advances s (pageWalked i f rest rev s) (s.pages, BitVec.ofNat 16 i) rev rest [ackToken] 1 :=
  ⟨.pageLoop, [_], rfl, rfl⟩

theorem pageEscaped_advances (i : Nat) (f : List Byte) (rest : List RxAnswer) (s : State) :
    Advances s (transmit escToken (pageRead i f rest s)) (s.pages, BitVec.ofNat 16 i) s.rev rest [escToken] 1 :=
  ⟨.pageLoop, [_], rfl, rfl⟩

/-- Valid pages, one after the other: each is acknowledged and walked. -/
theorem pagesLoop_after_valid (hfs : ∀ f ∈ fs, f.length = 267 ∧ verify cfg f = true)
    (hpidx : s.pidx = BitVec.ofNat 16 (i - 1)) (h : s.answers = fs.map .data ++ rest) :
    ∃ s', pagesLoop cfg offset (fs.length + n) i l s =
        pagesLoop cfg offset n (i + fs.length) (walkPages cfg offset i fs (s.rev, l)).2 s' ∧
      Advances s s' (s.pages, BitVec.ofNat 16 (i + fs.length - 1)) (walkPages cfg offset i fs (s.rev, l)).1 rest
        (List.replicate fs.length ackToken) fs.length := by
  induction fs generalizing i l s with
  | nil =>
    refine ⟨s, by rw [List.length_nil, Nat.zero_add]; rfl, ?_⟩
    have hnone := advances_refl (rest := rest) h
    rwa [hpidx] at hnone
  | cons f fs ih =>
    obtain ⟨s', hloop, hadv⟩ := ih (i := i + 1) (l := (walkPage cfg f i offset (s.rev, l)).2)
      (s := pageWalked i f (fs.map .data ++ rest) (walkPage cfg f i offset (s.rev, l)).1 s)
      (fun x hx => hfs x (List.mem_cons_of_mem f hx)) rfl rfl
    have hindex : i + 1 + fs.length = i + (fs.length + 1) := by omega
    rw [hindex] at hloop hadv
    refine ⟨s', ?_, ?_⟩
    · rw [List.length_cons, Nat.add_right_comm, pagesLoop_valid_page (hfs f List.mem_cons_self) h]
      exact hloop
    · have hboth := (pageWalked_advances i f _ _ s).trans hadv
      rwa [Nat.add_comm 1 fs.length] at hboth

/-- All pages are valid: the list is what the walk of the pages collects (R278). -/
theorem pagesLoop_collects (hfs : ∀ f ∈ fs, f.length = 267 ∧ verify cfg f = true) (hpidx : s.pidx = 0)
    (h : s.answers = fs.map .data ++ rest) :
    ∃ s', pagesLoop cfg offset fs.length 0 [] s = (.list (walkPages cfg offset 0 fs (s.rev, [])).2, s') ∧
      Advances s s' (s.pages, BitVec.ofNat 16 (fs.length - 1)) (walkPages cfg offset 0 fs (s.rev, [])).1 rest
        (List.replicate fs.length ackToken) fs.length := by
  have hpages := pagesLoop_after_valid (offset := offset) (n := 0) (i := 0) (l := []) hfs hpidx h
  rwa [Nat.zero_add] at hpages

/-- A page that fails its CRC after valid ones: the escape byte is sent (R280). -/
theorem pagesLoop_discards (hfs : ∀ f ∈ fs, f.length = 267 ∧ verify cfg f = true) (hlen : fs.length < n)
    (hbad : bad.length = 267 ∧ verify cfg bad = false) (hpidx : s.pidx = 0)
    (h : s.answers = fs.map .data ++ .data bad :: rest) :
    ∃ s', pagesLoop cfg offset n 0 [] s = (.noResult, s') ∧
      Advances s s' (s.pages, BitVec.ofNat 16 fs.length) (walkPages cfg offset 0 fs (s.rev, [])).1 rest
        (List.replicate fs.length ackToken ++ [escToken]) (fs.length + 1) := by
  obtain ⟨m, rfl⟩ : ∃ m, n = fs.length + (m + 1) := ⟨n - fs.length - 1, by omega⟩
  obtain ⟨s', hloop, hadv⟩ := pagesLoop_after_valid (offset := offset) (n := m + 1) (i := 0) (l := []) hfs hpidx h
  rw [pagesLoop_bad_page hbad hadv.answers_eq] at hloop
  have hpages : s'.pages = s.pages := congrArg Prod.fst hadv.prog_eq
  have hescape := pageEscaped_advances (0 + fs.length) bad rest s'
  rw [hpages, hadv.rev_eq, Nat.zero_add] at hescape
  rw [Nat.zero_add] at hloop
  exact ⟨_, hloop, hadv.trans hescape⟩

end

/-! ## The header (43_download.md R273, R274) -/

section
variable {h : List Byte} {rest : List RxAnswer} {s : State}

/-- The state after the header has been read. -/
def headerRead (h : List Byte) (rest : List RxAnswer) (s : State) : State := received cfg.hdrSize cfg.tData (.data h) rest s

/-- The state after the header has been read and acknowledged. -/
def headerTaken (h : List Byte) (rest : List RxAnswer) (s : State) : State :=
  { transmit ackToken (headerRead h rest s) with seq := .headerReceived, pages := le16 h 0 }

theorem receive_header (hlen : h.length = 6) (hs : s.answers = .data h :: rest) :
    receive cfg.hdrSize cfg.tData s = (.data h, headerRead h rest s) :=
  receive_of_exact (clampAnswer_of_length hlen) hs

theorem headerProc_of_valid (hlen : h.length = 6) (hvalid : verify cfg h = true) (hs : s.answers = .data h :: rest) :
    headerProc cfg s = pagesLoop cfg (le16 h 2).toNat (le16 h 0).toNat 0 [] (headerTaken h rest s) := by
  simp only [headerProc, receive_header hlen hs, hvalid, if_true, headerTaken]

theorem headerProc_of_bad (hlen : h.length = 6) (hinvalid : verify cfg h = false) (hs : s.answers = .data h :: rest) :
    headerProc cfg s = (.noResult, transmit escToken (headerRead h rest s)) := by
  simp only [headerProc, receive_header hlen hs, hinvalid, Bool.false_eq_true, if_false]

theorem headerTaken_advances (h : List Byte) (rest : List RxAnswer) (s : State) :
    Advances s (headerTaken h rest s) (le16 h 0, s.pidx) s.rev rest [ackToken] 1 :=
  ⟨.headerReceived, [_], rfl, rfl⟩

theorem headerEscaped_advances (h : List Byte) (rest : List RxAnswer) (s : State) :
    Advances s (transmit escToken (headerRead h rest s)) (s.pages, s.pidx) s.rev rest [escToken] 1 :=
  ⟨s.seq, [_], rfl, rfl⟩

end

/-! ## The watermark (43_download.md R272) -/

section
variable {h bad : List Byte} {b : Byte} {fs : List (List Byte)} {rest : List RxAnswer} {s : State}

/-- The state after the watermark frame has been sent and answered with the byte `b`. -/
def watermarkAnswered (b : Byte) (rest : List RxAnswer) (s : State) : State :=
  received 1 cfg.tAck (.data [b]) rest (watermarkSent s)

theorem receive_watermarkAck (hs : s.answers = .data [b] :: rest) :
    receive 1 cfg.tAck (watermarkSent s) = (.data [b], watermarkAnswered b rest s) :=
  receive_of_exact (s := watermarkSent s) (clampAnswer_exact [b]) hs

theorem watermarkProc_of_ack (hs : s.answers = .data ackToken :: rest) :
    watermarkProc cfg s = headerProc cfg (watermarkAnswered 0x06 rest s) := by
  have hr := receive_watermarkAck hs
  unfold watermarkSent at hr
  simp only [watermarkProc, hr]
  rfl

theorem watermarkProc_of_wrongAck (hb : b ≠ 0x06) (hs : s.answers = .data [b] :: rest) :
    watermarkProc cfg s = (.noResult, watermarkAnswered b rest s) := by
  have hr := receive_watermarkAck hs
  have hne : [b] ≠ ackToken := fun heq => hb (List.head_eq_of_cons_eq heq)
  unfold watermarkSent at hr
  simp only [watermarkProc, hr, if_neg hne]

theorem watermarkAnswered_advances (b : Byte) (rest : List RxAnswer) (s : State) :
    Advances s (watermarkAnswered b rest s) (s.pages, s.pidx) s.rev rest [watermarkFrame cfg s.wmDate s.wmTime] 1 :=
  ⟨.headerSent, [_], rfl, rfl⟩

/-- The device acknowledges the watermark and sends a valid header: the pages follow. -/
theorem watermarkProc_of_header (hlen : h.length = 6) (hvalid : verify cfg h = true) (hpidx : s.pidx = 0)
    (hs : s.answers = .data ackToken :: .data h :: rest) :
    ∃ s', watermarkProc cfg s = pagesLoop cfg (le16 h 2).toNat (le16 h 0).toNat 0 [] s' ∧
      Advances s s' (le16 h 0, 0) s.rev rest [watermarkFrame cfg s.wmDate s.wmTime, ackToken] 2 := by
  have hadv := (watermarkAnswered_advances 0x06 (.data h :: rest) s).trans (headerTaken_advances h rest _)
  refine ⟨_, (watermarkProc_of_ack hs).trans (headerProc_of_valid hlen hvalid rfl), ?_⟩
  rw [← hpidx]
  exact hadv

/-- A download of valid pages returns what the walk of the pages collects. -/
theorem watermarkProc_collects (hlen : h.length = 6) (hvalid : verify cfg h = true) (hcount : (le16 h 0).toNat = fs.length)
    (hfs : ∀ f ∈ fs, f.length = 267 ∧ verify cfg f = true) (hpidx : s.pidx = 0)
    (hs : s.answers = .data ackToken :: .data h :: (fs.map .data ++ rest)) :
    ∃ s', watermarkProc cfg s = (.list (walkPages cfg (le16 h 2).toNat 0 fs (s.rev, [])).2, s') ∧
      Advances s s' (le16 h 0, BitVec.ofNat 16 (fs.length - 1)) (walkPages cfg (le16 h 2).toNat 0 fs (s.rev, [])).1 rest
        (watermarkFrame cfg s.wmDate s.wmTime :: ackToken :: List.replicate fs.length ackToken) (2 + fs.length) := by
  obtain ⟨s₁, hproc, hadv⟩ := watermarkProc_of_header hlen hvalid hpidx hs
  obtain ⟨hpages₁, hpidx₁⟩ := Prod.mk.inj hadv.prog_eq
  obtain ⟨s₂, hloop, hadv₂⟩ := pagesLoop_collects (offset := (le16 h 2).toNat) hfs hpidx₁ hadv.answers_eq
  rw [hadv.rev_eq] at hloop hadv₂
  rw [hpages₁] at hadv₂
  rw [hcount, hloop] at hproc
  exact ⟨s₂, hproc, hadv.trans hadv₂⟩

/-- Every ending without a result (R272, R273, R275). -/
theorem watermarkProc_noResult (e : BadEnd) (hok : e.Ok cfg) (hpages : s.pages = 0) (hpidx : s.pidx = 0)
    (hs : s.answers = e.answers ++ rest) :
    ∃ s' n, watermarkProc cfg s = (.noResult, s') ∧ e.sent.length + n = e.steps ∧
      Advances s s' e.prog (e.rev cfg s.rev) rest (watermarkFrame cfg s.wmDate s.wmTime :: e.sent) n := by
  cases e with
  | wrongAck b =>
    have hadv := watermarkAnswered_advances b rest s
    rw [hpages, hpidx] at hadv
    exact ⟨_, 1, watermarkProc_of_wrongAck hok hs, rfl, hadv⟩
  | badHeader h =>
    obtain ⟨hlen, hinvalid⟩ := hok
    have hadv := (watermarkAnswered_advances 0x06 (.data h :: rest) s).trans (headerEscaped_advances h rest _)
    refine ⟨_, 2, (watermarkProc_of_ack hs).trans (headerProc_of_bad hlen hinvalid rfl), rfl, ?_⟩
    have hprog : ((0 : Half), (0 : Half)) = (s.pages, s.pidx) := by rw [hpages, hpidx]
    rw [BadEnd.prog, hprog]
    exact hadv
  | badPage h fs bad =>
    obtain ⟨hlen, hvalid, hcount, hfs, hbad⟩ := hok
    have hs' : s.answers = .data ackToken :: .data h :: (fs.map .data ++ .data bad :: rest) := by
      rw [hs, BadEnd.answers, List.cons_append, List.cons_append, List.append_assoc]
      rfl
    obtain ⟨s₁, hproc, hadv⟩ := watermarkProc_of_header hlen hvalid hpidx hs'
    obtain ⟨hpages₁, hpidx₁⟩ := Prod.mk.inj hadv.prog_eq
    obtain ⟨s₂, hloop, hadv₂⟩ := pagesLoop_discards (offset := (le16 h 2).toNat) hfs hcount hbad hpidx₁ hadv.answers_eq
    rw [hadv.rev_eq, hpages₁] at hadv₂
    refine ⟨s₂, 2 + (fs.length + 1), hproc.trans hloop, ?_, hadv.trans hadv₂⟩
    simp only [BadEnd.sent, BadEnd.steps, List.length_cons, List.length_append, List.length_replicate, List.length_nil]
    omega

end

/-! ## The attempt (43_download.md R270, R271) -/

section
variable {badW rest : List RxAnswer} {badC : List Byte} {s : State}

/-- What a confirmed download command transmits after `w` failed wakes and `c` wrong confirmations. -/
def dmpaftSent (w c : Nat) : List (List Byte) :=
  List.replicate (w + 1) wakeReq ++ List.replicate (c + 1) [0x44, 0x4D, 0x50, 0x41, 0x46, 0x54, 0x20, 0x0A]

theorem commanded_advances (asW asC rest : List RxAnswer) (s : State) :
    Advances s (commanded .download asW asC rest (clearProg s)) (0, 0) s.rev rest
      (List.replicate asW.length wakeReq ++ List.replicate asC.length (frameOf .download)) (asW.length + asC.length) := by
  refine ⟨.send, asW.map (rxRecord 2 cfg.tAck) ++ asC.map (rxRecord 1 cfg.tAck), ?_, ?_⟩
  · rw [List.length_append, List.length_map, List.length_map]
  · rw [← List.append_assoc, ← List.append_assoc]
    rfl

/-- The command is confirmed: the watermark follows. -/
theorem attemptProc_of_confirmation (hbadW : ∀ a ∈ badW, clampAnswer 2 a ≠ .data wakeAck) (hw : badW.length ≤ 2)
    (hbadC : ∀ b ∈ badC, b ≠ 0x06) (hc : badC.length ≤ 2)
    (h : s.answers = badW ++ .data wakeAck :: (badC.map (fun b => .data [b]) ++ .data ackToken :: rest)) :
    ∃ s', attemptProc cfg s = watermarkProc cfg s' ∧
      Advances s s' (0, 0) s.rev rest (dmpaftSent badW.length badC.length) (badW.length + badC.length + 2) := by
  have hbadC' : ∀ a ∈ badC.map (fun b => RxAnswer.data [b]),
      ∃ bs, a = .data bs ∧ bs.length = (confirmation .download).length ∧ bs ≠ confirmation .download := by
    intro a ha
    obtain ⟨b, hb, rfl⟩ := List.mem_map.mp ha
    exact ⟨[b], rfl, rfl, fun heq => hbadC b hb (List.head_eq_of_cons_eq heq)⟩
  have hcommand := commandOfOp_of_confirmed (op := .download) (s := clearProg s) hbadW hw hbadC'
    (by rwa [List.length_map]) h
  have hadv := commanded_advances (badW ++ [.data wakeAck])
    (badC.map (fun b => RxAnswer.data [b]) ++ [.data (confirmation .download)]) rest s
  refine ⟨_, attemptProc_of_confirmed hcommand, ?_⟩
  simp only [List.length_append, List.length_map, List.length_singleton] at hadv
  rw [show badW.length + 1 + (badC.length + 1) = badW.length + badC.length + 2 by omega] at hadv
  exact hadv

/-- What an attempt transmits that the device answers at once with `k` valid pages, `wm` its watermark frame. -/
def collectedSent (wm : List Byte) (k : Nat) : List (List Byte) :=
  dmpaftSent 0 0 ++ wm :: ackToken :: List.replicate k ackToken

/-- Each Tx and each Rx of such an attempt is a step. -/
theorem collectedSent_steps (wm : List Byte) (k : Nat) : (collectedSent wm k).length + (2 + (2 + k)) = 2 * k + 8 := by
  simp only [collectedSent, dmpaftSent, List.length_append, List.length_cons, List.length_replicate]
  omega

/-- An attempt whose pages are all valid, the device answering at once. -/
theorem attemptProc_collects {h : List Byte} {fs : List (List Byte)} (hlen : h.length = 6) (hvalid : verify cfg h = true)
    (hcount : (le16 h 0).toNat = fs.length) (hfs : ∀ f ∈ fs, f.length = 267 ∧ verify cfg f = true)
    (hs : s.answers = .data wakeAck :: .data ackToken :: .data ackToken :: .data h :: (fs.map .data ++ rest)) :
    ∃ s', attemptProc cfg s = (.list (walkPages cfg (le16 h 2).toNat 0 fs (s.rev, [])).2, s') ∧
      Advances s s' (le16 h 0, BitVec.ofNat 16 (fs.length - 1)) (walkPages cfg (le16 h 2).toNat 0 fs (s.rev, [])).1 rest
        (collectedSent (watermarkFrame cfg s.wmDate s.wmTime) fs.length) (2 + (2 + fs.length)) := by
  obtain ⟨s₁, hattempt, hadv⟩ :=
    attemptProc_of_confirmation (badW := []) (badC := []) (by simp) (by simp) (by simp) (by simp) hs
  obtain ⟨-, hpidx⟩ := Prod.mk.inj hadv.prog_eq
  obtain ⟨s₂, hproc, hadv₂⟩ := watermarkProc_collects hlen hvalid hcount hfs hpidx hadv.answers_eq
  rw [hadv.rev_eq] at hproc hadv₂
  rw [hadv.watermarkFrame_eq] at hadv₂
  exact ⟨s₂, hattempt.trans hproc, hadv.trans hadv₂⟩

/-- An attempt without a result, `wm` its watermark frame. -/
theorem attemptProc_noResult {wm : List Byte} (a : BadAttempt) (hok : a.Ok cfg)
    (hwm : watermarkFrame cfg s.wmDate s.wmTime = wm) (hs : s.answers = a.answers ++ rest) :
    ∃ s' n, attemptProc cfg s = (.noResult, s') ∧ (a.sent wm).length + n = a.steps ∧
      Advances s s' a.ending.prog (a.ending.rev cfg s.rev) rest (a.sent wm) n := by
  obtain ⟨hbadW, hw, hbadC, hc, hend⟩ := hok
  have hs' : s.answers = a.badW ++ .data wakeAck :: (a.badC.map (fun b => .data [b]) ++ .data ackToken ::
      (a.ending.answers ++ rest)) := by
    rw [hs, BadAttempt.answers]
    simp only [List.append_assoc, List.cons_append]
    rfl
  obtain ⟨s₁, hattempt, hadv⟩ := attemptProc_of_confirmation hbadW hw hbadC hc hs'
  obtain ⟨hpages, hpidx⟩ := Prod.mk.inj hadv.prog_eq
  obtain ⟨s₂, n, hproc, hn, hadv₂⟩ := watermarkProc_noResult a.ending hend hpages hpidx hadv.answers_eq
  rw [hadv.rev_eq, hadv.watermarkFrame_eq, hwm] at hadv₂
  refine ⟨s₂, _, hattempt.trans hproc, ?_, hadv.trans hadv₂⟩
  simp only [BadAttempt.sent, BadAttempt.steps, List.length_append, List.length_replicate, List.length_cons]
  omega

end

/-! ## How DOWNLOAD ends (43_download.md R279, R280) -/

section
variable {s s' : State} {prog : Half × Half} {rev : Rev} {rest : List RxAnswer} {tx : List (List Byte)} {n N : Nat}
variable {l : List ArcEntry} {code : Code}

theorem Advances.withRlist (h : Advances s s' prog rev rest tx n) (l : List ArcEntry) :
    Advances { s with rlist := l } { s' with rlist := l } prog rev rest tx n := by
  obtain ⟨seq, rx, hn, rfl⟩ := h
  exact ⟨seq, rx, hn, rfl⟩

theorem Advances.withSelection (h : Advances s s' prog rev rest tx n) (i : BitVec 19) (v : Bool) (r : Result) (date time : Half) :
    Advances { s with selIndex := i, selValid := v, result := r, wmDate := date, wmTime := time }
      { s' with selIndex := i, selValid := v, result := r, wmDate := date, wmTime := time } prog rev rest tx n := by
  obtain ⟨seq, rx, hn, rfl⟩ := h
  exact ⟨seq, rx, hn, rfl⟩

theorem Advances.selection_eq (h : Advances s s' prog rev rest tx n) :
    s'.selValid = s.selValid ∧ s'.selIndex = s.selIndex ∧ s'.result = s.result := by
  obtain ⟨seq, rx, -, rfl⟩ := h
  exact ⟨rfl, rfl, rfl⟩

/-- The end of an operation after its attempts. -/
theorem Advances.complete_eq (h : Advances s s' prog rev rest tx n) (htask : s.task = none) (habort : s.abortReq = false)
    (code : Code) :
    complete code s' = { s with
      pages := prog.1, pidx := prog.2, rev := rev, seq := if code = .ok then .done else .aborted, code := code, done := true
      answers := rest, rxLog := s'.rxLog, txLog := s.txLog ++ tx } := by
  obtain ⟨seq, rx, -, rfl⟩ := h
  exact Proofs.complete_eq code htask habort

/-- The state in which the attempt of DOWNLOAD begins. -/
def downloadStart (s : State) : State := clearSel { s with rlist := [] }

theorem downloadProc_of_list (hr : attemptProc cfg (downloadStart s) = (.list l, s')) :
    downloadProc cfg s = complete .ok { s' with rlist := l } := by
  unfold downloadStart at hr
  simp only [downloadProc, hr]

theorem downloadProc_of_noResult (hr : attemptProc cfg (downloadStart s) = (.noResult, s')) :
    downloadProc cfg s = complete .noResult s' := by
  unfold downloadStart at hr
  simp only [downloadProc, hr]

/-- DOWNLOAD ends with the list `l` and the code of its attempt, one step for every event on the channel. -/
theorem download_ends (hready : Ready s) (hproc : downloadProc cfg s = complete code s')
    (hadv : Advances (clearSel { s with rlist := l }) s' prog rev rest tx n) (hn : tx.length + n = N) :
    ∃ t u, exec .download s = .next t ∧ runSteps N t = .next u ∧
      u = { s with
        rlist := l, rev := rev, selValid := false, selIndex := 0, pages := prog.1, pidx := prog.2
        seq := if code = .ok then .done else .aborted, code := code, done := true, answers := rest, rxLog := u.rxLog
        txLog := s.txLog ++ tx } := by
  obtain ⟨htask, habort, hin⟩ := hready
  have hrun := download_runs (s := s) ⟨habort, hin⟩
  refine ⟨_, complete code s', exec_serial .download s, ?_, hadv.complete_eq htask habort code⟩
  rw [operationProc, hproc] at hrun
  refine hrun.runSteps_eq ?_
  rw [channelEvents_start .download, ← hn]
  exact hadv.channelEvents_eq

end

/-- Settles O37: the one attempt collects the pages. -/
theorem downloadCollects : Obligations.DownloadCollects := by
  intro s h fs rest hready hlen hvalid hcount hfs hs
  obtain ⟨s', hattempt, hadv⟩ := attemptProc_collects (s := downloadStart s) hlen hvalid hcount hfs hs
  rw [List.append_assoc]
  exact download_ends (code := .ok) hready (downloadProc_of_list hattempt) (hadv.withRlist _) (collectedSent_steps _ _)

/-- Settles O38: the one attempt ends with a bad page, the device having answered at once. -/
theorem downloadDiscards : Obligations.DownloadDiscards := by
  intro s h fs bad rest hready hlen hvalid hcount hfs hbad hinvalid hs
  have hok : BadAttempt.Ok cfg ⟨[], [], .badPage h fs bad⟩ :=
    ⟨by simp, by simp, by simp, by simp, hlen, hvalid, hcount, hfs, hbad, hinvalid⟩
  have hs' : s.answers = BadAttempt.answers ⟨[], [], .badPage h fs bad⟩ ++ rest := by
    simp [hs, BadAttempt.answers, BadEnd.answers]
  obtain ⟨s', n, hattempt, hn, hadv⟩ := attemptProc_noResult (s := downloadStart s) _ hok rfl hs'
  rw [List.append_assoc, List.append_assoc]
  exact download_ends (code := .noResult) hready (downloadProc_of_noResult hattempt) hadv
    (hn.trans (by simp only [BadAttempt.steps, BadEnd.steps, List.length_nil]; omega))

/-! ## How POLL_ARC ends (43_download.md R281 to R285) -/

section
variable {s s' x : State} {l : List ArcEntry} {j : Nat} {e : ArcEntry} {kd : Nat} {t : Task} {r : Attempt}

theorem selectNewest_of_none (h : newest (x.wmDate, x.wmTime) l = none) : selectNewest l x = x := by
  rw [selectNewest, h]

theorem selectNewest_of_some (h : newest (x.wmDate, x.wmTime) l = some (j, e)) :
    selectNewest l x = { x with
      selIndex := BitVec.ofNat 19 j, selValid := true, result := .arc e
      wmDate := dateStampOf e.record, wmTime := timeStampOf e.record } := by
  rw [selectNewest, h]

/-- What POLL_ARC leaves in SEL, RESULT and WM after it has selected from `l` above the watermark `wm` (R282 to R284). -/
def Selects (wm : Stamp) (l : List ArcEntry) (u : State) : Prop :=
  (∀ j e, Selected wm l j e →
    u.selValid = true ∧ u.selIndex = BitVec.ofNat 19 j ∧ u.result = .arc e ∧ (u.wmDate, u.wmTime) = stampOf e.record) ∧
  ((∀ e ∈ l, ¬ Newer (stampOf e.record) wm) →
    u.selValid = false ∧ u.selIndex = 0 ∧ u.result = .none ∧ (u.wmDate, u.wmTime) = wm) ∧
  ((∃ j e, Selected wm l j e) ∨ ∀ e ∈ l, ¬ Newer (stampOf e.record) wm)

theorem selectNewest_selects {wm : Stamp} (l : List ArcEntry) (hvalid : x.selValid = false) (hindex : x.selIndex = 0)
    (hresult : x.result = .none) (hwm : (x.wmDate, x.wmTime) = wm) : Selects wm l (selectNewest l x) := by
  subst hwm
  refine ⟨fun j e h => ?_, fun h => ?_, ?_⟩
  · rw [selectNewest_of_some (newest_eq_some_iff.mpr h)]
    exact ⟨rfl, rfl, rfl, rfl⟩
  · rw [selectNewest_of_none (newest_eq_none_iff.mpr h)]
    exact ⟨hvalid, hindex, hresult, rfl⟩
  · cases hnewest : newest (x.wmDate, x.wmTime) l with
    | none => exact .inr (newest_eq_none_iff.mp hnewest)
    | some b => exact .inl ⟨b.1, b.2, newest_eq_some_iff.mp hnewest⟩

/-- The selection writes SEL, RESULT and WM only. -/
theorem selectNewest_frame (l : List ArcEntry) (x : State) :
    selectNewest l x = { x with
      selIndex := (selectNewest l x).selIndex, selValid := (selectNewest l x).selValid
      result := (selectNewest l x).result, wmDate := (selectNewest l x).wmDate, wmTime := (selectNewest l x).wmTime } := by
  rcases selectNewest_cases l x with h | ⟨j, e, -, -, h⟩ <;> rw [h]

/-- The state in which the first attempt of POLL_ARC begins. -/
def pollArcStart (s : State) : State := clearSel { s with result := .none, rlist := [] }

/-- The machine runs an attempt of POLL_ARC to its result. -/
theorem pollArc_attempt (ht : Holds .pollArc kd [] t) (hs : Quiet s) (hr : attemptProc cfg s = (r, s')) :
    Quiet s' ∧ ∃ t' t₀, t'.op = .pollArc ∧ t'.kd = kd ∧
      Runs (startWake t (clearProg s)) (attemptDone cfg t' r (busyWith t₀ s')) := by
  obtain ⟨hs', t', t₀, ⟨l, hop, hkd, -⟩, hrun⟩ := attemptProc_returns rfl ht hs
  rw [hr] at hs' hrun
  exact ⟨hs', t', t₀, hop, hkd, hrun⟩

theorem pollArc_attempt_list (ht : Holds .pollArc kd [] t) (hs : Quiet s) (hr : attemptProc cfg s = (.list l, s')) :
    Runs (startWake t (clearProg s)) (complete .ok (selectNewest l { s' with rlist := l })) := by
  obtain ⟨-, t', t₀, hop, -, hrun⟩ := pollArc_attempt ht hs hr
  have hdone : attemptDone cfg t' (.list l) (busyWith t₀ s') = complete .ok (selectNewest l { s' with rlist := l }) := by
    simp only [attemptDone, hop]
    exact congrArg (finish .ok) (selectNewest_busyWith l t₀ { s' with rlist := l })
  rwa [hdone] at hrun

/-- An attempt without a result is followed by a pause and the next attempt. -/
theorem pollArc_attempt_retried (ht : Holds .pollArc kd [] t) (hs : Quiet s) (hkd : kd < 3)
    (hr : attemptProc cfg s = (.noResult, s')) :
    Quiet s' ∧ ∃ t', Holds .pollArc (kd + 1) [] t' ∧
      RunsPausing 1 (startWake t (clearProg s)) (startWake t' (clearProg s')) := by
  obtain ⟨hs', t', t₀, hop, hkd', hrun⟩ := pollArc_attempt ht hs hr
  simp only [attemptDone, hop, hkd', cfg_retries, if_pos hkd] at hrun
  have hpause := hrun.pausing.trans (runsPausing_pause (s := { s' with seq := .pause }) hs' .attempt t')
  exact ⟨hs', { t' with point := .pause .attempt, kd := t'.kd + 1, records := [] }, ⟨hop, congrArg (· + 1) hkd', rfl⟩,
    hpause⟩

theorem pollArc_attempt_last (ht : Holds .pollArc 3 [] t) (hs : Quiet s) (hr : attemptProc cfg s = (.noResult, s')) :
    Runs (startWake t (clearProg s)) (complete .noNewRecords s') := by
  obtain ⟨-, t', t₀, hop, hkd, hrun⟩ := pollArc_attempt ht hs hr
  simp only [attemptDone, hop, hkd, cfg_retries, Nat.lt_irrefl, if_false] at hrun
  exact hrun

/-- POLL_ARC ends with the list `l` of its first attempt. -/
theorem pollArc_list_ends {prog : Half × Half} {rev : Rev} {rest : List RxAnswer} {tx : List (List Byte)} {n N : Nat}
    (hready : Ready s) (hattempt : attemptProc cfg (pollArcStart s) = (.list l, s'))
    (hadv : Advances (pollArcStart s) s' prog rev rest tx n) (hn : tx.length + n = N) :
    ∃ t u, exec .pollArc s = .next t ∧ runSteps N t = .next u ∧
      u = { s with
        rlist := l, rev := u.rev, result := u.result, selValid := u.selValid, selIndex := u.selIndex, wmDate := u.wmDate
        wmTime := u.wmTime, pages := prog.1, pidx := prog.2, seq := .done, code := .ok, done := true, answers := rest
        rxLog := u.rxLog, txLog := u.txLog } ∧
      u.rev = rev ∧ Selects (s.wmDate, s.wmTime) l u := by
  obtain ⟨htask, habort, hin⟩ := hready
  have hrun : Runs (startWake (newTask cfg .pollArc) (cleared .pollArc s))
      (complete .ok (selectNewest l { s' with rlist := l })) :=
    pollArc_attempt_list (s := pollArcStart s) ⟨rfl, rfl, rfl⟩ ⟨habort, hin⟩ hattempt
  obtain ⟨hvalid, hindex, hresult⟩ := hadv.selection_eq
  have hselects : Selects (s.wmDate, s.wmTime) l (selectNewest l { s' with rlist := l }) :=
    selectNewest_selects l hvalid hindex hresult hadv.wm_eq
  have hframe := selectNewest_frame l { s' with rlist := l }
  generalize selectNewest l { s' with rlist := l } = y at hrun hselects hframe
  have hadv' := (hadv.withRlist l).withSelection y.selIndex y.selValid y.result y.wmDate y.wmTime
  rw [← hframe] at hadv'
  have hu := hadv'.complete_eq htask habort .ok
  refine ⟨_, complete .ok y, exec_serial .pollArc s, hrun.runSteps_eq ?_, ?_, hadv'.rev_eq, hselects⟩
  · rw [channelEvents_start .pollArc, ← hn]
    exact hadv'.channelEvents_eq
  · rw [hu]
    rfl

end

/-- Settles O39: the first attempt returns the list, and the selection from it decides SEL, RESULT and WM. -/
theorem pollArcSelects : Obligations.PollArcSelects := by
  intro s h fs rest l hready hlen hvalid hcount hfs hs hl
  obtain ⟨s', hattempt, hadv⟩ := attemptProc_collects (s := pollArcStart s) hlen hvalid hcount hfs hs
  exact pollArc_list_ends hready (hattempt.trans (by rw [hl]; rfl)) hadv (collectedSent_steps _ _)

/-- Settles O40: two attempts are followed by a pause each, the third by the end. -/
theorem pollArcGivesUp : Obligations.PollArcGivesUp := by
  intro s a₁ a₂ a₃ rest wm ⟨htask, habort, hin⟩ hok₁ hok₂ hok₃ hs hwm
  rw [List.append_assoc, List.append_assoc] at hs
  obtain ⟨s₁, n₁, hattempt₁, hn₁, hadv₁⟩ := attemptProc_noResult (s := pollArcStart s) a₁ hok₁ hwm.symm hs
  have hwm₁ := hadv₁.watermarkFrame_eq.trans hwm.symm
  obtain ⟨s₂, n₂, hattempt₂, hn₂, hadv₂⟩ := attemptProc_noResult a₂ hok₂ hwm₁ hadv₁.answers_eq
  have hwm₂ := hadv₂.watermarkFrame_eq.trans hwm₁
  obtain ⟨s₃, n₃, hattempt₃, hn₃, hadv₃⟩ := attemptProc_noResult a₃ hok₃ hwm₂ hadv₂.answers_eq
  rw [hadv₁.rev_eq] at hadv₂
  rw [hadv₂.rev_eq] at hadv₃
  have hadv := (hadv₁.trans hadv₂).trans hadv₃
  obtain ⟨hs₁, t₁, ht₁, hrun₁⟩ := pollArc_attempt_retried (t := newTask cfg .pollArc) (s := pollArcStart s)
    ⟨rfl, rfl, rfl⟩ ⟨habort, hin⟩ (by decide) hattempt₁
  obtain ⟨hs₂, t₂, ht₂, hrun₂⟩ := pollArc_attempt_retried ht₁ hs₁ (by decide) hattempt₂
  have hrun : RunsPausing 2 (startWake (newTask cfg .pollArc) (cleared .pollArc s)) (complete .noNewRecords s₃) :=
    (hrun₁.trans hrun₂).trans (pollArc_attempt_last ht₂ hs₂ hattempt₃).pausing
  refine ⟨_, complete .noNewRecords s₃, exec_serial .pollArc s, hrun.runSteps_eq ?_, ?_⟩
  · have hend : channelEvents (complete .noNewRecords s₃) = channelEvents s + _ := hadv.channelEvents_eq
    rw [List.length_append, List.length_append] at hend
    rw [channelEvents_start .pollArc, hend]
    omega
  · rw [List.append_assoc s.txLog, List.append_assoc s.txLog]
    exact hadv.complete_eq htask habort .noNewRecords

end Sys2Proof.Proofs

/-!
The control operations: NOP and an idle ABORT, an ABORT while the operation waits in an Rx or a Pause, and the end of a Tx under an
abort request (44_control.md R320, R322; 60_exceptions.md R347, R351).
-/
namespace Sys2Proof.Proofs

open Sys2Proof.Machine Sys2Proof.Laws

/-! ## NOP and ABORT while idle (44_control.md R320, R322) -/

theorem exec_nop_of_idle {s : State} (hidle : s.task = none) :
    exec .nop s = .next { s with code := .ok, done := true, abortReq := false } :=
  congrArg Host.Outcome.next (finish_of_idle .ok hidle)

theorem exec_abort_of_idle {s : State} (hidle : s.task = none) :
    exec .abort s = .next { s with code := .ok, done := true, abortReq := false } := by
  simp [exec, execAbort, busy_of_idle hidle, finish_of_idle .ok hidle]

/-- Settles O10: the word decodes to NOP or to ABORT, which runs on the state acceptance leaves. -/
theorem nopAndIdleAbort : Obligations.NopAndIdleAbort := by
  intro s hidle
  refine ⟨exec_nop_of_idle hidle, exec_abort_of_idle hidle, fun w hop => ?_⟩
  have hlastop : BitVec.ofNat 8 (w.toNat % 256) = w.extractLsb' 0 8 := (opField_eq_ofNat w).symm
  rw [hlastop]
  have hwrite : hostAccess (.write .word 0x000 w) s = writeCmd w s := hostAccess_write_reg .cmd w s
  rcases hop with hop | hop
  · rw [hwrite, writeCmd_of_idle hidle (decodeWord_of_opField (i := .nop) (opField_eq_iff.mpr hop))]
    exact exec_nop_of_idle (s := accept w s) hidle
  · rw [hwrite, writeCmd_of_idle hidle (decodeWord_eq_abort_iff.mpr hop)]
    exact exec_abort_of_idle (s := accept w s) hidle

/-! ## ABORT in an Rx or a Pause (44_control.md R322) -/

theorem cancelDue_of_waits {s : State} {t : Task} (htask : s.task = some t) (hwaits : t.point.waits = true)
    (habort : s.abortReq = true) : cancelDue s = true := by
  cases hp : t.point with
  | tx p => rw [hp] at hwaits; cases hwaits
  | rx p => simpa [cancelDue, htask, hp] using habort
  | pause p => simpa [cancelDue, htask, hp] using habort

/-- The operation that waits ends with CANCELLED; the channel has seen an abandoned Rx without an answer (log 9). -/
theorem cancel_of_waits {c : Config} {s : State} {t : Task} (htask : s.task = some t) (hwaits : t.point.waits = true) :
    ∃ l : List RxRecord, (∀ r ∈ l, r.answer = none) ∧ cancel c s = { s with
      task := none, abortReq := false, code := .cancelled, done := true, seq := .aborted, rxLog := s.rxLog ++ l } := by
  cases hp : t.point with
  | tx p => rw [hp] at hwaits; cases hwaits
  | rx p =>
    refine ⟨[{ n := (rxRequest c t p).1, timeout := (rxRequest c t p).2, answer := none }], by simp, ?_⟩
    simp [cancel, htask, hp, finish, State.busy]
  | pause p =>
    refine ⟨[], by simp, ?_⟩
    simp [cancel, htask, hp, finish, State.busy]

/-- Settles O11: the write sets ABORT_REQ, which makes the cancellation due in the next step. -/
theorem abortStopsWaiting : Obligations.AbortStopsWaiting := by
  intro s t w rest htask hwaits habort hin hop
  have hbusy : s.task ≠ none := by simp [htask]
  have hwrite : step s = .next { s with inputs := rest, abortReq := true } := by
    rw [step_of_host (cancelDue_of_no_abort habort) hin]
    exact (hostAccess_write_reg .cmd w _).trans (writeCmd_abort_of_busy hbusy (decodeWord_eq_abort_iff.mpr hop))
  have hdue : cancelDue { s with inputs := rest, abortReq := true } = true := cancelDue_of_waits htask hwaits rfl
  obtain ⟨l, hl, hcancel⟩ :=
    cancel_of_waits (c := cfg) (s := { s with inputs := rest, abortReq := true }) htask hwaits
  refine ⟨_, l, ?_, hl, rfl⟩
  rw [runSteps_succ hwrite, runSteps_succ (step_of_cancelDue hdue), runSteps_zero, hcancel, habort]

/-! ## A Tx that completes under an abort request (44_control.md R322, 60_exceptions.md R351) -/

/-- The watermark and the results, which the step after a Tx leaves alone unless the operation ends with OK. -/
def outcome (s : State) : Stamp × List ArcEntry × Result := ((s.wmDate, s.wmTime), s.rlist, s.result)

/-- A serial operation that began with the outcome `before` has ended with the code `c` in the state `u`. -/
structure EndsWith (c : Code) (before : Stamp × List ArcEntry × Result) (u : State) : Prop where
  task : u.task = none
  done : u.done = true
  abortReq : u.abortReq = false
  code : u.code = c
  seq : u.seq = if c = .ok then .done else .aborted
  untouched : c ≠ .ok → outcome u = before

theorem finish_endsWith {s : State} (code : Code) (hbusy : s.busy = true) : EndsWith code (outcome s) (finish code s) :=
  ⟨rfl, rfl, rfl, rfl, finish_seq_busy code hbusy, fun _ => rfl⟩

theorem finish_ok_endsWith {s : State} (before : Stamp × List ArcEntry × Result) (hbusy : s.busy = true) :
    EndsWith .ok before (finish .ok s) :=
  ⟨rfl, rfl, rfl, rfl, finish_seq_busy .ok hbusy, absurd rfl⟩

theorem enter_endsWith {s : State} (p : Point) (t : Task) (habort : s.abortReq = true) :
    EndsWith .cancelled (outcome s) (enter p t s) := by
  rw [enter_of_abort habort]
  exact finish_endsWith (s := { s with task := some { t with point := p } }) .cancelled rfl

/-- How an attempt without a result ends: POLL_ARC would pause before a further one (43_download.md R279, R281). -/
def noResultCode (t : Task) : Code :=
  if t.op = .pollArc then (if t.kd < cfg.retries then .cancelled else .noNewRecords) else .noResult

/-- How the operation ends when an abort is requested during its Tx at `p`. -/
def codeAfterTx (s : State) (t : Task) : TxPoint → Code
  | .wake => .cancelled
  | .send => .cancelled
  | .watermark => .cancelled
  | .escape => noResultCode t
  | .headerAck => if 0 < (le16 t.rxbuf 0).toNat then .cancelled else .ok
  | .pageAck => if s.pidx.toNat + 1 < s.pages.toNat then .cancelled else .ok

theorem attemptDone_noResult_endsWith {s : State} (t : Task) (hbusy : s.busy = true) (habort : s.abortReq = true) :
    EndsWith (noResultCode t) (outcome s) (attemptDone cfg t .noResult s) := by
  cases hop : t.op with
  | pollArc =>
    simp only [attemptDone, noResultCode, hop, if_true]
    split_ifs
    · exact enter_endsWith (s := { s with seq := .pause }) _ t habort
    · exact finish_endsWith .noNewRecords hbusy
  | _ =>
    simp only [attemptDone, noResultCode, hop]
    exact finish_endsWith .noResult hbusy

theorem attemptDone_list_endsWith {s : State} (t : Task) (l : List ArcEntry) (before : Stamp × List ArcEntry × Result)
    (hbusy : s.busy = true) : EndsWith .ok before (attemptDone cfg t (.list l) s) := by
  cases hop : t.op with
  | pollArc =>
    have hsel : (selectNewest l { s with rlist := l }).busy = true :=
      (congrArg Option.isSome (selectNewest_task l _)).trans hbusy
    simpa only [attemptDone, hop] using finish_ok_endsWith before hsel
  | _ =>
    simp only [attemptDone, hop]
    exact finish_ok_endsWith (s := { s with rlist := l }) before hbusy

/-- The page loop begins an Rx or returns its list. -/
theorem pageLoop_endsWith {s : State} (i : Nat) (t : Task) (hbusy : s.busy = true) (habort : s.abortReq = true) :
    EndsWith (if i < s.pages.toNat then .cancelled else .ok) (outcome s) (pageLoop cfg i t s) := by
  unfold pageLoop
  split
  · exact enter_endsWith (s := { s with seq := .pageLoop, pidx := _ }) _ t habort
  · exact attemptDone_list_endsWith t _ _ hbusy

theorem afterTx_endsWith {s : State} (t : Task) (p : TxPoint) (hbusy : s.busy = true) (habort : s.abortReq = true) :
    EndsWith (codeAfterTx s t p) (outcome s) (afterTx cfg t p s) := by
  cases p with
  | wake => exact enter_endsWith _ t habort
  | send => exact enter_endsWith _ t habort
  | watermark => exact enter_endsWith (s := { s with seq := .headerSent }) _ t habort
  | escape => exact attemptDone_noResult_endsWith t hbusy habort
  | headerAck =>
    exact pageLoop_endsWith (s := { s with seq := .headerReceived, pages := le16 t.rxbuf 0 }) 0 _ hbusy habort
  | pageAck =>
    simp only [afterTx]
    generalize walkPage cfg t.rxbuf s.pidx.toNat t.offset.toNat (s.rev, t.records) = x
    exact pageLoop_endsWith (s := { s with rev := x.1 }) (s.pidx.toNat + 1) _ hbusy habort

theorem step_of_tx {s : State} {t : Task} {p : TxPoint} (htask : s.task = some t) (hp : t.point = .tx p)
    (hin : s.inputs = []) : step s = .next (afterTx cfg t p (transmit (txBytesOf cfg s t p) s)) := by
  have hdue : cancelDue s = false := by simp [cancelDue, htask, hp]
  rw [step_of_nil hdue hin, advance_of_tx htask hp]

/-- Settles O12: `codeAfterTx` says how the operation ends, and what follows the Tx is silent on the channel. -/
theorem abortAfterTx : Obligations.AbortAfterTx := by
  intro s t p htask hp habort hin
  have hend := afterTx_endsWith (s := transmit (txBytesOf cfg s t p) s) t p (busy_of_task htask) habort
  obtain ⟨htx, hrx⟩ := Prod.mk.inj (afterTx_channel cfg t p (transmit (txBytesOf cfg s t p) s))
  refine ⟨_, step_of_tx htask hp hin, htx, hrx, hend.task, hend.done, hend.abortReq, ?_⟩
  obtain ⟨-, -, -, hcode, hseq, huntouched⟩ := hend
  rw [hcode, hseq]
  refine ⟨?_, ?_, ?_, ?_, ?_, ?_, ?_, ?_, fun hok => if_pos hok, fun hne => ⟨if_neg hne, ?_⟩⟩
  · rintro (rfl | rfl | rfl) <;> rfl
  · rintro rfl hop
    exact if_neg hop
  · rintro rfl hop hkd
    exact (if_pos hop).trans (if_pos hkd)
  · rintro rfl hop hkd
    exact (if_pos hop).trans (if_neg (Nat.not_lt.mpr hkd))
  · rintro rfl hpages
    exact if_pos (by bv_omega)
  · rintro rfl hpages
    exact if_neg (by simp [hpages])
  · rintro rfl hmore
    exact if_pos hmore
  · rintro rfl hlast
    exact if_neg (Nat.not_lt.mpr hlast)
  · have hsame := huntouched hne
    simp only [outcome, Prod.mk.injEq, transmit_wmDate, transmit_wmTime, transmit_rlist, transmit_result] at hsame
    obtain ⟨⟨hdate, htime⟩, hrlist, hresult⟩ := hsame
    exact ⟨hdate, htime, hrlist, hresult⟩

end Sys2Proof.Proofs

/-!
Completion: what `finish` writes, and which code an operation can finish with (60_exceptions.md R340 to R348). CODE is written by
`finish` alone, so a step that changes it is the end of an atomic step of the sequencer, a cancellation, or an accepted command.
-/
namespace Sys2Proof.Proofs

open Sys2Proof.Machine Sys2Proof.Laws

/-- Settles O7, by whether an operation runs. -/
theorem finishWrites : Obligations.FinishWrites := fun _ code =>
  ⟨fun _ htask => finish_of_task code htask, finish_of_idle code⟩

/-! ## What a piece of the block's work does to CODE -/

/-- From a state with the code `before`, a piece of work keeps CODE or finishes with a code that `raises` allows. -/
inductive CodeEffect (raises : Code → Prop) (before : Code) : State → Prop
  | keeps {u : State} (hcode : u.code = before) : CodeEffect raises before u
  | finishes {s : State} {code : Code} (hraise : raises code) : CodeEffect raises before (finish code s)

theorem CodeEffect.mono {raises raises' : Code → Prop} {before : Code} {u : State} (h : CodeEffect raises before u)
    (himp : ∀ code, raises code → raises' code) : CodeEffect raises' before u := by
  cases h with
  | keeps hcode => exact .keeps hcode
  | finishes hraise => exact .finishes (himp _ hraise)

/-! ## The sequencer (42_handshake.md R236 to R242, 43_download.md R279 to R287) -/

/-- The codes an atomic step can finish with, for an operation `op` in its attempt `kd` with ABORT_REQ = `abort`. -/
def SerialRaises (op : SerialOp) (kd : Nat) (abort : Bool) : Code → Prop
  | .ok => True
  | .deviceUnreachable => True
  | .noNewRecords => op = .pollArc ∧ cfg.retries ≤ kd
  | .noResult => op = .download
  | .cancelled => abort = true
  | .decodeFail => False
  | .illegalOp => False
  | .bufOverflow => False

/-- What an atomic step of the operation `op` in its attempt `kd`, begun in `s`, does to CODE. -/
abbrev SerialEffect (op : SerialOp) (kd : Nat) (s : State) : State → Prop :=
  CodeEffect (SerialRaises op kd s.abortReq) s.code

theorem serialRaises_cmdResult (op : SerialOp) (kd : Nat) (abort : Bool) (r : CmdResult) :
    SerialRaises op kd abort r.code := by
  cases r <;> trivial

theorem eq_download_of_downloads {op : SerialOp} (hop : op.downloads = true) (hne : op ≠ .pollArc) : op = .download := by
  cases op with
  | download => rfl
  | pollArc => exact absurd rfl hne
  | _ => cases hop

theorem enter_codeEffect {op : SerialOp} {kd : Nat} (p : Point) (t : Task) (s : State) :
    SerialEffect op kd s (enter p t s) := by
  rcases enter_cases p t s with ⟨-, h⟩ | ⟨habort, h⟩ <;> rw [h]
  · exact .keeps rfl
  · exact .finishes habort

/-- An attempt ends without a result only under an operation that makes attempts. -/
theorem attemptDone_codeEffect (t : Task) (r : Attempt) (s : State) (hop : r = .noResult → t.op.downloads = true) :
    SerialEffect t.op t.kd s (attemptDone cfg t r s) := by
  cases r with
  | unreachable => exact .finishes trivial
  | list l => simp only [attemptDone]; split <;> exact .finishes trivial
  | noResult =>
    simp only [attemptDone]
    split
    · split
      · exact enter_codeEffect (.pause .attempt) t { s with seq := .pause }
      · exact .finishes ⟨‹_›, Nat.not_lt.mp ‹_›⟩
    · exact .finishes (eq_download_of_downloads (hop rfl) ‹_›)

theorem commandDone_codeEffect (t : Task) (r : CmdResult) (s : State) :
    SerialEffect t.op t.kd s (commandDone cfg t r s) := by
  unfold commandDone
  split
  · exact .finishes (serialRaises_cmdResult ..)
  · exact .finishes (serialRaises_cmdResult ..)
  · exact .finishes (serialRaises_cmdResult ..)
  · exact enter_codeEffect (.rx .snapshot) _ { s with seq := .dataRead }
  · exact .finishes trivial
  · exact enter_codeEffect _ _ s
  · exact attemptDone_codeEffect t _ s nofun
  · exact enter_codeEffect _ _ s
  · exact attemptDone_codeEffect t _ s nofun

theorem wakeDone_codeEffect (t : Task) (r : CmdResult) (s : State) : SerialEffect t.op t.kd s (wakeDone cfg t r s) := by
  unfold wakeDone
  split
  · exact .finishes (serialRaises_cmdResult ..)
  · exact enter_codeEffect (.tx .send) _ { s with seq := .send }
  · exact commandDone_codeEffect t .unreachable s

theorem pageLoop_codeEffect (i : Nat) (t : Task) (s : State) : SerialEffect t.op t.kd s (pageLoop cfg i t s) := by
  unfold pageLoop
  split
  · exact enter_codeEffect (.rx .page) t { s with seq := .pageLoop, pidx := BitVec.ofNat 16 i }
  · exact attemptDone_codeEffect t _ s nofun

theorem afterTx_codeEffect {t : Task} {p : TxPoint} (s : State) (hpoint : pointOfOp t.op (.tx p) = true) :
    SerialEffect t.op t.kd s (afterTx cfg t p s) := by
  cases p with
  | wake => exact enter_codeEffect _ t s
  | send => exact enter_codeEffect _ t s
  | watermark => exact enter_codeEffect (.rx .watermarkAck) t { s with seq := .headerSent }
  | escape => exact attemptDone_codeEffect t .noResult s fun _ => hpoint
  | headerAck =>
    exact pageLoop_codeEffect 0 { t with offset := le16 t.rxbuf 2 }
      { s with seq := .headerReceived, pages := le16 t.rxbuf 0 }
  | pageAck =>
    simp only [afterTx]
    generalize walkPage cfg t.rxbuf s.pidx.toNat t.offset.toNat (s.rev, t.records) = x
    exact pageLoop_codeEffect (s.pidx.toNat + 1) { t with records := x.2 } { s with rev := x.1 }

/-- A checked frame is acknowledged or escaped: either way the operation goes on to a Tx. -/
theorem checkedFrame_codeEffect (ack : TxPoint) (bs : List Byte) (t : Task) (s : State) :
    SerialEffect t.op t.kd s (if (checkFrame cfg bs t).1 then enter (.tx ack) (checkFrame cfg bs t).2 s
      else enter (.tx .escape) (checkFrame cfg bs t).2 s) := by
  split <;> exact enter_codeEffect _ (checkFrame cfg bs t).2 s

theorem afterRx_codeEffect {t : Task} {p : RxPoint} (a : RxAnswer) (s : State)
    (hpoint : pointOfOp t.op (.rx p) = true) : SerialEffect t.op t.kd s (afterRx cfg t p a s) := by
  cases p with
  | wake =>
    simp only [afterRx]
    split
    · exact wakeDone_codeEffect t .ok s
    · split
      · exact enter_codeEffect _ _ s
      · exact wakeDone_codeEffect t .unreachable s
  | confirm =>
    cases a with
    | timeout => exact commandDone_codeEffect t .unreachable s
    | data bs =>
      simp only [afterRx]
      split
      · exact commandDone_codeEffect t .ok s
      · split
        · exact enter_codeEffect _ _ s
        · exact commandDone_codeEffect t _ s
  | watermarkAck =>
    cases a with
    | timeout => exact attemptDone_codeEffect t .unreachable s nofun
    | data bs =>
      simp only [afterRx]
      split
      · exact enter_codeEffect (.rx .header) t s
      · exact attemptDone_codeEffect t .noResult s fun _ => hpoint
  | header =>
    cases a with
    | timeout => exact attemptDone_codeEffect t .unreachable s nofun
    | data bs => exact checkedFrame_codeEffect .headerAck bs t s
  | page =>
    cases a with
    | timeout => exact attemptDone_codeEffect t .unreachable s nofun
    | data bs => exact checkedFrame_codeEffect .pageAck bs t s
  | snapshot =>
    cases a with
    | timeout => exact .finishes trivial
    | data bs =>
      simp only [afterRx]
      split
      · exact .finishes trivial
      · split
        · exact enter_codeEffect (.pause .snapshot) (checkFrame cfg bs t).2 { s with seq := .pause }
        · exact .finishes trivial

/-- After a pause the operation goes on; POLL_ARC's counter moves with it, but no attempt can end here. -/
theorem afterPause_codeEffect (t : Task) (p : PausePoint) (s : State) : SerialEffect t.op t.kd s (afterPause t p s) := by
  cases p with
  | attempt => exact enter_codeEffect (.tx .wake) _ { clearProg s with seq := .wake }
  | snapshot => exact enter_codeEffect (.rx .snapshot) _ { s with seq := .dataRead }

theorem advance_codeEffect {s : State} {t : Task} (htask : s.task = some t) (hpoint : pointOfOp t.op t.point = true) :
    SerialEffect t.op t.kd s (advance cfg s) := by
  match hp : t.point with
  | .tx p =>
    rw [advance_of_tx htask hp]
    exact afterTx_codeEffect (transmit (txBytesOf cfg s t p) s) (hp ▸ hpoint)
  | .rx p =>
    rw [advance_of_rx htask hp]
    generalize rxRequest cfg t p = q
    obtain ⟨answers, draws, hstate⟩ := receive_state q.1 q.2 s
    have heffect := afterRx_codeEffect (t := keepAnswer q.1 q.2 (receive q.1 q.2 s).1 t) (receive q.1 q.2 s).1
      (receive q.1 q.2 s).2 (hp ▸ hpoint)
    rwa [SerialEffect, congrArg State.code hstate, congrArg State.abortReq hstate] at heffect
  | .pause p =>
    rw [advance_of_pause htask hp]
    exact afterPause_codeEffect t p s

/-! ## An accepted command (40_crc.md R133 to R138, 41_record_codec.md R186 to R192) -/

/-- The codes an operation accepted in `s` can finish with at once. -/
def HostRaises (s : State) (i : Instr) : Code → Prop
  | .ok => True
  | .decodeFail => 0x10 ≤ i.opcode.toNat ∧ i.opcode.toNat ≤ 0x15
  | .bufOverflow => i = .crcAppend ∧ 510 < s.len.toNat
  | .deviceUnreachable => False
  | .noNewRecords => False
  | .noResult => False
  | .illegalOp => False
  | .cancelled => False

/-- What the operation `i`, accepted in `s`, does to CODE. -/
abbrev HostCodeEffect (s : State) (i : Instr) : State → Prop := CodeEffect (HostRaises s i) s.code

theorem withBytes_codeEffect {s u : State} {i : Instr} {a n : Nat} {f : List Byte → State}
    (h : withBytes s a n (fun bs => .next (finish .ok (f bs))) = .next u) : HostCodeEffect s i u := by
  obtain ⟨bs, -, hk⟩ := withBytes_next h
  cases hk
  exact .finishes trivial

theorem decodeOp_codeEffect {s u : State} {i : Instr} {p size : Nat} {k : List Byte → State → State}
    (h : decodeOp s p size k = .next u) (hi : 0x10 ≤ i.opcode.toNat ∧ i.opcode.toNat ≤ 0x15) : HostCodeEffect s i u := by
  rcases decodeOp_next h with ⟨bs, rfl⟩ | rfl
  · exact .finishes trivial
  · exact .finishes hi

theorem execCrcAppend_codeEffect {s u : State} (h : execCrcAppend s = .next u) : HostCodeEffect s .crcAppend u := by
  unfold execCrcAppend at h
  split at h
  · rename_i hfull
    have hlen : 510 < s.len.toNat := by simp only [State.lenNat, cfg_fbSize] at hfull; omega
    cases h
    exact .finishes ⟨rfl, hlen⟩
  · exact withBytes_codeEffect h

@[simp] theorem cleared_code (op : SerialOp) (s : State) : (cleared op s).code = s.code := by cases op <;> rfl

/-- With no abort requested a serial operation starts without a completion. -/
theorem startWake_code {t : Task} {s : State} (h : s.abortReq = false) : (startWake t s).code = s.code := by
  have hwait := enter_of_no_abort (p := .tx .wake) (t := { t with kw := 1 }) (s := { s with seq := .wake }) h
  rw [startWake, hwait]

theorem exec_serial_codeEffect {s u : State} (op : SerialOp) (habort : s.abortReq = false)
    (h : exec op.instr s = .next u) : HostCodeEffect s op.instr u := by
  rw [exec_serial] at h
  cases h
  exact .keeps ((startWake_code ((cleared_abortReq op s).trans habort)).trans (cleared_code op s))

theorem exec_codeEffect {s u : State} {i : Instr} (hidle : s.task = none) (habort : s.abortReq = false)
    (h : exec i s = .next u) : HostCodeEffect s i u := by
  cases i with
  | nop => cases h; exact .finishes trivial
  | abort =>
    rw [exec_abort_of_idle hidle, ← finish_of_idle .ok hidle] at h
    cases h
    exact .finishes trivial
  | crcClr => cases h; exact .finishes trivial
  | crcByte b => cases h; exact .finishes trivial
  | crcBuf => exact withBytes_codeEffect h
  | verify => exact withBytes_codeEffect h
  | crcAppend => exact execCrcAppend_codeEffect h
  | decSnap p => exact decodeOp_codeEffect (by simpa only [exec, execDecSnap] using h) (by simp [Instr.opcode])
  | decArca p => exact decodeOp_codeEffect (by simpa only [exec, execDecArca] using h) (by simp [Instr.opcode])
  | decArcb p => exact decodeOp_codeEffect (by simpa only [exec, execDecArcb] using h) (by simp [Instr.opcode])
  | decArc p => exact decodeOp_codeEffect (by simpa only [exec, execDecArc] using h) (by simp [Instr.opcode])
  | decHdr p => exact decodeOp_codeEffect (by simpa only [exec, execDecHdr] using h) (by simp [Instr.opcode])
  | decPage p => exact decodeOp_codeEffect (by simpa only [exec, execDecPage] using h) (by simp [Instr.opcode])
  | wake => exact exec_serial_codeEffect .wake habort h
  | setper n => exact exec_serial_codeEffect (.setper n) habort h
  | clrlog => exact exec_serial_codeEffect .clrlog habort h
  | pollRt => exact exec_serial_codeEffect .pollRt habort h
  | download => exact exec_serial_codeEffect .download habort h
  | pollArc => exact exec_serial_codeEffect .pollArc habort h

/-! ## One step (60_exceptions.md R340 to R348) -/

/-- The codes a step from `s` can raise. -/
def StepRaises (s : State) : Code → Prop
  | .ok => True
  | .deviceUnreachable => s.task ≠ none
  | .noNewRecords => ∃ t, s.task = some t ∧ t.op = .pollArc ∧ t.kd = 3
  | .noResult => ∃ t, s.task = some t ∧ t.op = .download
  | .decodeFail => ∃ op, acceptedOp s = some op ∧ 0x10 ≤ op ∧ op ≤ 0x15
  | .illegalOp => ∃ w r, acceptedWord s = some w ∧ decodeWord w = .error r
  | .cancelled => s.task ≠ none ∧ s.abortReq = true
  | .bufOverflow => acceptedOp s = some 0x05 ∧ 510 < s.len.toNat

theorem stepRaises_of_serialRaises {s : State} {t : Task} {code : Code} (htask : s.task = some t) (hkd : t.kd ≤ 3)
    (h : SerialRaises t.op t.kd s.abortReq code) : StepRaises s code := by
  have hbusy : s.task ≠ none := by simp [htask]
  cases code with
  | ok => trivial
  | deviceUnreachable => exact hbusy
  | noNewRecords => exact ⟨t, htask, h.1, Nat.le_antisymm hkd h.2⟩
  | noResult => exact ⟨t, htask, h⟩
  | cancelled => exact ⟨hbusy, h⟩
  | decodeFail => exact h.elim
  | illegalOp => exact h.elim
  | bufOverflow => exact h.elim

theorem stepRaises_of_hostRaises {s s' : State} {w : Word} {i : Instr} {code : Code} (hw : acceptedWord s = some w)
    (hdec : decodeWord w = .ok i) (hlen : s'.len = s.len) (h : HostRaises s' i code) : StepRaises s code := by
  have hop : acceptedOp s = some i.opcode.toNat := acceptedOp_of_decodeWord hw hdec
  cases code with
  | ok => trivial
  | decodeFail => exact ⟨_, hop, h⟩
  | bufOverflow =>
    obtain ⟨rfl, hfull⟩ := h
    exact ⟨hop, hlen ▸ hfull⟩
  | deviceUnreachable => exact h.elim
  | noNewRecords => exact h.elim
  | noResult => exact h.elim
  | illegalOp => exact h.elim
  | cancelled => exact h.elim

theorem acceptedCommand_codeEffect {s u : State} {w : Word} {rest : List Input} (hinv : Inv s) (hidle : s.task = none)
    (hin : s.inputs = .host (.write .word 0x000 w) :: rest) (hstep : step s = .next u) :
    CodeEffect (StepRaises s) s.code u := by
  have hw : acceptedWord s = some w := acceptedWord_of_inputs hidle hin
  have hwrite : writeCmd w { s with inputs := rest } = .next u :=
    (hostAccess_write_reg .cmd w _).symm.trans ((step_of_host (cancelDue_of_idle hidle) hin).symm.trans hstep)
  cases hdec : decodeWord w with
  | error r =>
    rw [writeCmd_reserved (s := { s with inputs := rest }) hidle hdec] at hwrite
    cases hwrite
    exact .finishes ⟨w, r, hw, hdec⟩
  | ok i =>
    rw [writeCmd_of_idle (s := { s with inputs := rest }) hidle hdec] at hwrite
    have heffect := exec_codeEffect (s := accept w { s with inputs := rest }) hidle (hinv.idle hidle).1 hwrite
    exact heffect.mono fun _ => stepRaises_of_hostRaises hw hdec rfl

theorem abortReq_of_cancelDue {s : State} (h : cancelDue s = true) : s.abortReq = true := by
  cases habort : s.abortReq with
  | true => rfl
  | false => rw [cancelDue_of_no_abort habort] at h; cases h

theorem step_codeEffect {s u : State} (hinv : Inv s) (hstep : step s = .next u) (hreset : resetNext s = false) :
    CodeEffect (StepRaises s) s.code u := by
  cases stepEffect_of_step hstep with
  | cancels hdue =>
    obtain ⟨rxLog, h⟩ := cancel_eq_finish cfg hdue
    rw [h]
    exact .finishes ⟨(busy_iff s).mp (busy_of_cancelDue hdue), abortReq_of_cancelDue hdue⟩
  | @advances t l htask =>
    obtain ⟨hpoint, -, -, -, -, -, -, ⟨-, -, -, ⟨-, hkd⟩, -⟩, -⟩ := hinv.task t htask
    have heffect := advance_codeEffect (s := { s with inputs := l }) htask hpoint
    exact heffect.mono fun _ => stepRaises_of_serialRaises htask hkd
  | accesses hin heff =>
    cases heff with
    | commands hcmd =>
      by_cases hidle : s.task = none
      · exact acceptedCommand_codeEffect hinv hidle hin hstep
      · cases hcmd with
        | aborts hbusy => exact .keeps rfl
        | lost hbusy => exact .keeps rfl
        | _ => contradiction
    | _ => exact .keeps rfl
  | listens l d => exact .keeps rfl
  | resets hin => rw [resetNext_of_inputs hin] at hreset; cases hreset

/-- Settles O49: a step that changes CODE has finished, with one of the codes `StepRaises` allows. -/
theorem outcomeCodes : Obligations.OutcomeCodes := by
  intro s u hinv hstep hreset hchanged
  cases step_codeEffect hinv hstep hreset with
  | keeps hcode => exact absurd hcode hchanged
  | finishes hraise =>
    refine ⟨rfl, rfl, ?_, ?_, ?_, ?_, ?_, ?_, ?_⟩ <;>
    · rintro rfl
      exact hraise

end Sys2Proof.Proofs

/-!
Reset, and what an unwritten byte of the frame buffer does to an operation that reads it (70_reset_and_hazards.md R380, R381,
R390).
-/
namespace Sys2Proof.Proofs

open Sys2Proof.Machine Sys2Proof.Laws

/-! ## Reset (70_reset_and_hazards.md R380, R381) -/

/-- Settles O9: reset is the step's input whatever runs, and without input or operation the sequencer has nothing to do. -/
theorem resetInOneStep : Obligations.ResetInOneStep := by
  refine ⟨fun s rest hdue hin => step_of_reset hdue hin, fun s hidle hin => ?_⟩
  rw [step_of_nil (cancelDue_of_idle hidle) hin, advance_of_idle hidle]

/-! ## Unwritten bytes (70_reset_and_hazards.md R390) -/

section
variable {s : State}

/-- An operation over the frame `FB[0..LEN)` reads all of it first. -/
theorem exec_crcBuf_of_unwritten (h : SomeUnwritten s 0 s.len.toNat) : exec .crcBuf s = .fault .unwrittenFb :=
  withBytes_of_someUnwritten _ h

theorem exec_verify_of_unwritten (h : SomeUnwritten s 0 s.len.toNat) : exec .verify s = .fault .unwrittenFb :=
  withBytes_of_someUnwritten _ h

/-- Without an overflow CRC_APPEND reads the frame before it writes behind it. -/
theorem exec_crcAppend_of_unwritten (hfit : s.len.toNat + 2 ≤ 512) (h : SomeUnwritten s 0 s.len.toNat) :
    exec .crcAppend s = .fault .unwrittenFb := by
  change (if s.len.toNat + 2 > 512 then _ else withBytes s 0 s.len.toNat _) = _
  rw [if_neg (Nat.not_lt.mpr hfit), withBytes_of_someUnwritten _ h]

/-- A decode operation whose layout ends within LEN reads all its bytes. -/
theorem decodeOp_of_unwritten {p size : Nat} (k : List Byte → State → State) (hfit : p + size ≤ s.len.toNat)
    (h : SomeUnwritten s p size) : decodeOp s p size k = .fault .unwrittenFb := by
  have hfits : fits p size (State.lenNat { s with result := .none }) = true := decide_eq_true hfit
  simp only [decodeOp, hfits, if_true]
  exact withBytes_of_someUnwritten (s := { s with result := .none }) _ h

end

/-- Settles O60: each operation reads its whole input before it writes. -/
theorem unwrittenByteFaults : Obligations.UnwrittenByteFaults := by
  refine ⟨read_nil, fun s hidle => ⟨fun h => ?_, fun p hfit h => ?_, fun p hfit h => ?_, fun p hfit h => ?_,
    fun p hfit h => ?_, fun a i ha hi hb => ?_⟩⟩
  · exact ⟨exec_crcBuf_of_unwritten h, exec_verify_of_unwritten h, fun hfit => exec_crcAppend_of_unwritten hfit h⟩
  · rw [exec_decSnap, decodeOp_of_unwritten _ hfit h]
  · rw [exec_decArca, exec_decArcb, exec_decArc]
    exact ⟨decodeOp_of_unwritten _ hfit h, decodeOp_of_unwritten _ hfit h, decodeOp_of_unwritten _ hfit h⟩
  · rw [exec_decHdr, decodeOp_of_unwritten _ hfit h]
  · rw [exec_decPage, decodeOp_of_unwritten _ hfit h]
  · rw [(hostAccess_fbByte s ha hi).1, readFb_of_unwritten hidle hb]

end Sys2Proof.Proofs

/-!
The revision flag: only the probe writes it, and a known flag stays (10_state.md R36, 41_record_codec.md R176,
70_reset_and_hazards.md R382).
-/
namespace Sys2Proof.Proofs

open Sys2Proof.Machine Sys2Proof.Laws

/-! ## The work between suspension points keeps the flag -/

@[simp] theorem enter_rev (p : Point) (t : Task) (s : State) : (enter p t s).rev = s.rev := by
  rcases enter_cases p t s with ⟨-, h⟩ | ⟨-, h⟩ <;> simp [h]

@[simp] theorem selectNewest_rev (l : List ArcEntry) (s : State) : (selectNewest l s).rev = s.rev := by
  rcases selectNewest_cases l s with h | ⟨j, e, -, -, h⟩ <;> rw [h]

@[simp] theorem startPause_rev (p : PausePoint) (t : Task) (s : State) : (startPause p t s).rev = s.rev :=
  enter_rev _ t { s with seq := .pause }

@[simp] theorem startWake_rev (t : Task) (s : State) : (startWake t s).rev = s.rev :=
  enter_rev _ _ { s with seq := .wake }

@[simp] theorem startSend_rev (t : Task) (s : State) : (startSend t s).rev = s.rev :=
  enter_rev _ _ { s with seq := .send }

@[simp] theorem startSnapshotRead_rev (t : Task) (s : State) : (startSnapshotRead t s).rev = s.rev :=
  enter_rev _ t { s with seq := .dataRead }

@[simp] theorem attemptDone_rev (c : Config) (t : Task) (r : Attempt) (s : State) : (attemptDone c t r s).rev = s.rev := by
  unfold attemptDone
  split
  · rfl
  · split <;> simp
  · split
    · split <;> simp
    · rfl

@[simp] theorem commandDone_rev (c : Config) (t : Task) (r : CmdResult) (s : State) :
    (commandDone c t r s).rev = s.rev := by
  unfold commandDone
  split <;> simp

@[simp] theorem wakeDone_rev (c : Config) (t : Task) (r : CmdResult) (s : State) : (wakeDone c t r s).rev = s.rev := by
  unfold wakeDone
  split <;> simp

@[simp] theorem pageLoop_rev (c : Config) (i : Nat) (t : Task) (s : State) : (pageLoop c i t s).rev = s.rev := by
  unfold pageLoop
  split <;> simp

@[simp] theorem afterRx_rev (c : Config) (t : Task) (p : RxPoint) (a : RxAnswer) (s : State) :
    (afterRx c t p a s).rev = s.rev := by
  cases p with
  | wake => simp only [afterRx]; split_ifs <;> simp
  | confirm =>
    cases a with
    | timeout => exact commandDone_rev c t .unreachable s
    | data bs => simp only [afterRx]; split_ifs <;> simp
  | watermarkAck =>
    cases a with
    | timeout => exact attemptDone_rev c t .unreachable s
    | data bs => simp only [afterRx]; split_ifs <;> simp
  | header =>
    cases a with
    | timeout => exact attemptDone_rev c t .unreachable s
    | data bs => simp only [afterRx]; split_ifs <;> simp
  | page =>
    cases a with
    | timeout => exact attemptDone_rev c t .unreachable s
    | data bs => simp only [afterRx]; split_ifs <;> simp
  | snapshot =>
    cases a with
    | timeout => rfl
    | data bs => simp only [afterRx]; split_ifs <;> simp

@[simp] theorem afterPause_rev (t : Task) (p : PausePoint) (s : State) : (afterPause t p s).rev = s.rev := by
  cases p with
  | attempt => exact startWake_rev _ (clearProg s)
  | snapshot => exact startSnapshotRead_rev _ s

/-! ## The page's walk and DEC_ARC probe it (41_record_codec.md R176, R190; 43_download.md R277) -/

theorem walkSlots_rev_of_known (c : Config) (f : List Byte) (j n : Nat) {x : Rev × List ArcEntry} (h : x.1 ≠ .unknown) :
    (walkSlots c f j n x).1 = x.1 := by
  induction n generalizing j x with
  | zero => rfl
  | succ n ih =>
    have hslot : (slotRecord c f (1 + c.arcSize * j) x).1 = x.1 := probe_of_known _ h
    rw [walkSlots_succ, ih (j + 1) (hslot ▸ h), hslot]

theorem walkPage_rev_of_known (c : Config) (f : List Byte) (i offset : Nat) {x : Rev × List ArcEntry}
    (h : x.1 ≠ .unknown) : (walkPage c f i offset x).1 = x.1 :=
  walkSlots_rev_of_known c f _ _ h

/-- What follows a Tx writes the flag only after a page's acknowledgement, and only one that was unknown. -/
theorem afterTx_rev (c : Config) (t : Task) (p : TxPoint) (s : State) :
    (afterTx c t p s).rev = s.rev ∨ (s.rev = .unknown ∧ p = .pageAck) := by
  cases p with
  | wake => exact .inl (enter_rev _ t s)
  | send => exact .inl (enter_rev _ t s)
  | watermark => exact .inl (enter_rev _ t { s with seq := .headerSent })
  | escape => exact .inl (attemptDone_rev c t .noResult s)
  | headerAck => exact .inl (pageLoop_rev c 0 _ { s with seq := .headerReceived, pages := le16 t.rxbuf 0 })
  | pageAck =>
    by_cases hknown : s.rev = .unknown
    · exact .inr ⟨hknown, rfl⟩
    · exact .inl ((pageLoop_rev c _ _ { s with rev := _ }).trans (walkPage_rev_of_known c _ _ _ hknown))

theorem advance_rev {c : Config} {s : State} {t : Task} (htask : s.task = some t) :
    (advance c s).rev = s.rev ∨ (s.rev = .unknown ∧ t.point = .tx .pageAck) := by
  match hp : t.point with
  | .tx p =>
    rw [advance_of_tx htask hp]
    exact (afterTx_rev c t p (transmit (txBytesOf c s t p) s)).imp_right fun h => ⟨h.1, congrArg Point.tx h.2⟩
  | .rx p =>
    obtain ⟨answers, draws, hstate⟩ := receive_state (rxRequest c t p).1 (rxRequest c t p).2 s
    rw [advance_of_rx htask hp, afterRx_rev, hstate]
    exact .inl rfl
  | .pause p =>
    rw [advance_of_pause htask hp]
    exact .inl (afterPause_rev t p s)

/-- A decode operation that writes no register but RESULT leaves the flag. -/
theorem decodeOp_result_rev {s u : State} {p size : Nat} {r : List Byte → Result}
    (h : decodeOp s p size (fun bs s => { s with result := r bs }) = .next u) : u.rev = s.rev := by
  rcases decodeOp_next h with ⟨bs, rfl⟩ | rfl <;> rfl

theorem Computes.rev_writer {s s' : State} {i : Instr} (h : Computes s i s') :
    s'.rev = s.rev ∨ (s.rev = .unknown ∧ 0x10 ≤ i.opcode.toNat ∧ i.opcode.toNat ≤ 0x15) := by
  cases h with
  | decode hi result rev hrev => exact hrev.symm.imp_right fun hunknown => ⟨hunknown, hi⟩
  | _ => exact .inl rfl

@[simp] theorem cleared_rev (op : SerialOp) (s : State) : (cleared op s).rev = s.rev := by cases op <;> rfl

/-- An operation of an idle block writes the flag only if it is in the decode family. -/
theorem exec_rev_of_idle {s u : State} {i : Instr} (hidle : s.task = none) (h : exec i s = .next u) :
    u.rev = s.rev ∨ (s.rev = .unknown ∧ 0x10 ≤ i.opcode.toNat ∧ i.opcode.toNat ≤ 0x15) := by
  rcases exec_next_of_idle hidle h with ⟨code, s', rfl, hcomp⟩ | ⟨op, -, rfl⟩
  · exact hcomp.rev_writer
  · exact .inl ((startWake_rev _ _).trans (cleared_rev op s))

/-- In the decode family only DEC_ARC writes it. -/
theorem exec_rev {s u : State} {i : Instr} (hidle : s.task = none) (h : exec i s = .next u) :
    u.rev = s.rev ∨ (s.rev = .unknown ∧ i.opcode = 0x13) := by
  have hfamily := exec_rev_of_idle hidle h
  cases i with
  | decSnap p => exact .inl (decodeOp_result_rev ((exec_decSnap p s).symm.trans h))
  | decArca p => exact .inl (decodeOp_result_rev ((exec_decArca p s).symm.trans h))
  | decArcb p => exact .inl (decodeOp_result_rev ((exec_decArcb p s).symm.trans h))
  | decHdr p => exact .inl (decodeOp_result_rev ((exec_decHdr p s).symm.trans h))
  | decPage p => exact .inl (decodeOp_result_rev ((exec_decPage p s).symm.trans h))
  | decArc p => exact hfamily.imp_right fun hdec => ⟨hdec.1, rfl⟩
  | _ => exact .inl (hfamily.resolve_right fun hdec => by simp [Instr.opcode] at hdec)

/-! ## One step -/

/-- The step from `s` probes: it accepts a DEC_ARC, or completes a page's acknowledgement. -/
def Probes (s : State) : Prop := acceptedOp s = some 0x13 ∨ ∃ t, s.task = some t ∧ t.point = .tx .pageAck

theorem writeCmd_rev_of_idle {w : Word} {s u : State} (hidle : s.task = none) (h : writeCmd w s = .next u) :
    u.rev = s.rev ∨ (s.rev = .unknown ∧ ∃ i, decodeWord w = .ok i ∧ i.opcode = 0x13) := by
  cases hdec : decodeWord w with
  | error r =>
    rw [writeCmd_reserved hidle hdec] at h
    cases h
    exact .inl rfl
  | ok i =>
    rw [writeCmd_of_idle hidle hdec] at h
    exact (exec_rev (s := accept w s) hidle h).imp_right fun hprobe => ⟨hprobe.1, i, rfl, hprobe.2⟩

theorem acceptedCommand_rev {s u : State} {w : Word} {rest : List Input} (hidle : s.task = none)
    (hin : s.inputs = .host (.write .word 0x000 w) :: rest) (hstep : step s = .next u) :
    u.rev = s.rev ∨ (s.rev = .unknown ∧ Probes s) := by
  have hwrite : writeCmd w { s with inputs := rest } = .next u :=
    (hostAccess_write_reg .cmd w _).symm.trans ((step_of_host (cancelDue_of_idle hidle) hin).symm.trans hstep)
  refine (writeCmd_rev_of_idle (s := { s with inputs := rest }) hidle hwrite).imp_right ?_
  rintro ⟨hunknown, i, hdec, hop⟩
  refine ⟨hunknown, .inl ?_⟩
  rw [acceptedOp_of_decodeWord (acceptedWord_of_inputs hidle hin) hdec, hop]
  rfl

/-- A step other than reset leaves the flag, or probes while the flag is unknown. -/
theorem step_rev {s u : State} (hstep : step s = .next u) (hreset : resetNext s = false) :
    u.rev = s.rev ∨ (s.rev = .unknown ∧ Probes s) := by
  cases stepEffect_of_step hstep with
  | cancels hdue =>
    obtain ⟨rxLog, h⟩ := cancel_eq_finish cfg hdue
    exact .inl (by rw [h]; rfl)
  | @advances t l htask =>
    exact (advance_rev (s := { s with inputs := l }) htask).imp_right fun h => ⟨h.1, .inr ⟨t, htask, h.2⟩⟩
  | accesses hin heff =>
    cases heff with
    | commands hcmd =>
      by_cases hidle : s.task = none
      · exact acceptedCommand_rev hidle hin hstep
      · cases hcmd with
        | aborts hbusy => exact .inl rfl
        | lost hbusy => exact .inl rfl
        | _ => contradiction
    | _ => exact .inl rfl
  | listens l d => exact .inl rfl
  | resets hin => rw [resetNext_of_inputs hin] at hreset; cases hreset

/-- Settles O45: a step that moves the flag found it unknown and was a probe. -/
theorem revisionSticky : Obligations.RevisionSticky := by
  intro s u hstep hreset
  have hrev := step_rev hstep hreset
  exact ⟨fun hknown => hrev.resolve_right fun h => hknown h.1, fun hmoved => (hrev.resolve_left hmoved).2⟩

end Sys2Proof.Proofs

/-!
Every operation ends: `stepsLeft` bounds the steps a running operation still takes, and each of its steps lowers it
(70_reset_and_hazards.md R392). The bound counts the attempts left and, within the running one, the steps from its point on.
-/
namespace Sys2Proof.Proofs

open Sys2Proof.Machine Sys2Proof.Laws

/-! ## The steps left -/

/-- More steps than one attempt takes, from its first wake request to the pause behind it. -/
def attemptSteps : Nat := 2 * 65536 + 17

/-- A bound on the steps from the point `p` to the end of the attempt or of the operation. A page takes two, and PROG.PAGES is
below 65536; the loops of the handshake and of the snapshot reads take two for each try left. -/
def stepsFrom (s : State) (t : Task) : Point → Nat
  | .pause .attempt => 0
  | .tx .escape => 1
  | .tx .pageAck => 2 * (s.pages.toNat - s.pidx.toNat) + 1
  | .rx .page => 2 * (s.pages.toNat - s.pidx.toNat) + 2
  | .pause .snapshot => 2 * (3 - t.kr)
  | .rx .snapshot => 2 * (3 - t.kr) + 1
  | .tx .headerAck => 2 * 65536 + 1
  | .rx .header => 2 * 65536 + 2
  | .rx .watermarkAck => 2 * 65536 + 3
  | .tx .watermark => 2 * 65536 + 4
  | .rx .confirm => 2 * 65536 + 5 + 2 * (3 - t.ks)
  | .tx .send => 2 * 65536 + 6 + 2 * (3 - t.ks)
  | .rx .wake => 2 * 65536 + 11 + 2 * (3 - t.kw)
  | .tx .wake => 2 * 65536 + 12 + 2 * (3 - t.kw)

/-- A bound on the steps of the operation that stands at the point `p`. -/
def stepsLeft (s : State) (t : Task) (p : Point) : Nat := attemptSteps * (3 - t.kd) + stepsFrom s t p

theorem stepsLeft_lt {s : State} {t : Task} {p : Point} (hkd : 1 ≤ t.kd) (hkw : 1 ≤ t.kw) :
    stepsLeft s t p < 400000 := by
  have hpages : s.pages.toNat < 65536 := s.pages.isLt
  have hfrom : stepsFrom s t p < attemptSteps := by
    unfold attemptSteps
    fun_cases stepsFrom s t p <;> omega
  unfold stepsLeft attemptSteps at *
  omega

/-- No operation runs, or one with fewer than `bound` steps left. -/
def Below (bound : Nat) (u : State) : Prop := ∀ t, u.task = some t → stepsLeft u t t.point < bound

theorem finish_below {bound : Nat} (code : Code) (s : State) : Below bound (finish code s) := nofun

theorem enter_below {bound : Nat} {p : Point} {t : Task} {s : State} (h : stepsLeft s t p < bound) :
    Below bound (enter p t s) := by
  rcases enter_cases p t s with ⟨-, heq⟩ | ⟨-, heq⟩ <;> rw [heq]
  · rintro _ ⟨⟩
    exact h
  · exact finish_below _ _

/-! ## The procedures, from their innermost ends outwards -/

section
variable {bound : Nat} {t : Task} {s : State}

theorem attemptDone_below (r : Attempt) (h : attemptSteps * (3 - t.kd) < bound) : Below bound (attemptDone cfg t r s) := by
  unfold attemptDone
  split
  · exact finish_below _ _
  · split <;> exact finish_below _ _
  · split
    · split
      · exact enter_below h
      · exact finish_below _ _
    · exact finish_below _ _

theorem commandDone_below (r : CmdResult) (h : stepsLeft s t (.tx .watermark) < bound) :
    Below bound (commandDone cfg t r s) := by
  have hattempt (r : Attempt) : Below bound (attemptDone cfg t r s) :=
    attemptDone_below r ((Nat.le_add_right _ _).trans_lt h)
  have hsnapshot : stepsLeft s { t with kr := 1 } (.rx .snapshot) < bound := by
    simp only [stepsLeft, stepsFrom] at h ⊢
    omega
  unfold commandDone
  split
  · exact finish_below _ _
  · exact finish_below _ _
  · exact finish_below _ _
  · exact enter_below hsnapshot
  · exact finish_below _ _
  · exact enter_below h
  · exact hattempt _
  · exact enter_below h
  · exact hattempt _

theorem wakeDone_below (r : CmdResult) (h : stepsLeft s { t with ks := 1 } (.tx .send) < bound) :
    Below bound (wakeDone cfg t r s) := by
  unfold wakeDone
  split
  · exact finish_below _ _
  · exact enter_below h
  · refine commandDone_below _ ?_
    simp only [stepsLeft, stepsFrom] at h ⊢
    omega

theorem pageLoop_below {i : Nat} (hend : attemptSteps * (3 - t.kd) < bound)
    (hpage : i < s.pages.toNat → attemptSteps * (3 - t.kd) + 2 * (s.pages.toNat - i) + 2 < bound) :
    Below bound (pageLoop cfg i t s) := by
  have hpages : s.pages.toNat < 65536 := s.pages.isLt
  unfold pageLoop
  split
  · rename_i hi
    have hpidx : (BitVec.ofNat 16 i).toNat = i := by
      rw [BitVec.toNat_ofNat]
      exact Nat.mod_eq_of_lt (by omega)
    refine enter_below ?_
    simp only [stepsLeft, stepsFrom, hpidx]
    exact hpage hi
  · exact attemptDone_below _ hend

/-! ## After a suspension point -/

theorem afterTx_below (p : TxPoint) : Below (stepsLeft s t (.tx p)) (afterTx cfg t p s) := by
  cases p with
  | wake => exact enter_below (by simp only [stepsLeft, stepsFrom]; omega)
  | send => exact enter_below (by simp only [stepsLeft, stepsFrom]; omega)
  | watermark => exact enter_below (by simp only [stepsLeft, stepsFrom]; omega)
  | escape => exact attemptDone_below _ (Nat.lt_succ_self _)
  | headerAck =>
    have hpages : (le16 t.rxbuf 0).toNat < 65536 := (le16 t.rxbuf 0).isLt
    exact pageLoop_below (Nat.lt_add_of_pos_right (Nat.succ_pos _)) fun _ => by simp only [stepsLeft, stepsFrom]; omega
  | pageAck =>
    exact pageLoop_below (Nat.lt_add_of_pos_right (Nat.succ_pos _)) fun hi => by
      simp only [stepsLeft, stepsFrom] at hi ⊢
      omega

/-- A checked frame is followed by its acknowledgement or by the escape byte. -/
theorem checkedFrame_below {ack : TxPoint} (bs : List Byte) (hack : stepsLeft s t (.tx ack) < bound)
    (hescape : stepsLeft s t (.tx .escape) < bound) :
    Below bound (if (checkFrame cfg bs t).1 then enter (.tx ack) (checkFrame cfg bs t).2 s
      else enter (.tx .escape) (checkFrame cfg bs t).2 s) := by
  split
  · refine enter_below ?_
    cases ack <;> exact hack
  · exact enter_below hescape

theorem afterRx_below (p : RxPoint) (a : RxAnswer) : Below (stepsLeft s t (.rx p)) (afterRx cfg t p a s) := by
  have hattempt (hp : 0 < stepsFrom s t (.rx p)) (r : Attempt) :
      Below (stepsLeft s t (.rx p)) (attemptDone cfg t r s) := attemptDone_below r (Nat.lt_add_of_pos_right hp)
  cases p with
  | wake =>
    have hsend : stepsLeft s { t with ks := 1 } (.tx .send) < stepsLeft s t (.rx .wake) := by
      simp only [stepsLeft, stepsFrom]
      omega
    simp only [afterRx]
    split
    · exact wakeDone_below _ hsend
    · split
      · rename_i hkw
        rw [cfg_retries] at hkw
        exact enter_below (by simp only [stepsLeft, stepsFrom]; omega)
      · exact wakeDone_below _ hsend
  | confirm =>
    have hdone (r : CmdResult) : Below (stepsLeft s t (.rx .confirm)) (commandDone cfg t r s) :=
      commandDone_below r (by simp only [stepsLeft, stepsFrom]; omega)
    cases a with
    | timeout => exact hdone _
    | data bs =>
      simp only [afterRx]
      split
      · exact hdone _
      · split
        · rename_i hks
          rw [cfg_retries] at hks
          exact enter_below (by simp only [stepsLeft, stepsFrom]; omega)
        · exact hdone _
  | watermarkAck =>
    cases a with
    | timeout => exact hattempt (Nat.succ_pos _) _
    | data bs =>
      simp only [afterRx]
      split
      · exact enter_below (by simp only [stepsLeft, stepsFrom]; omega)
      · exact hattempt (Nat.succ_pos _) _
  | header =>
    cases a with
    | timeout => exact hattempt (Nat.succ_pos _) _
    | data bs => exact checkedFrame_below bs (Nat.lt_succ_self _) (by simp only [stepsLeft, stepsFrom]; omega)
  | page =>
    cases a with
    | timeout => exact hattempt (Nat.succ_pos _) _
    | data bs => exact checkedFrame_below bs (Nat.lt_succ_self _) (by simp only [stepsLeft, stepsFrom]; omega)
  | snapshot =>
    cases a with
    | timeout => exact finish_below _ _
    | data bs =>
      simp only [afterRx]
      split
      · exact finish_below _ _
      · split
        · exact enter_below (Nat.lt_succ_self _)
        · exact finish_below _ _

theorem afterPause_below {p : PausePoint} (hkd : p = .attempt → t.kd < 3) (hkr : p = .snapshot → t.kr < 3) :
    Below (stepsLeft s t (.pause p)) (afterPause t p s) := by
  cases p with
  | attempt =>
    have := hkd rfl
    exact enter_below (by simp only [stepsLeft, stepsFrom, attemptSteps]; omega)
  | snapshot =>
    have := hkr rfl
    exact enter_below (by simp only [stepsLeft, stepsFrom]; omega)

end

/-! ## A step and a run -/

theorem advance_below {s : State} {t : Task} (hinv : Inv s) (htask : s.task = some t) :
    Below (stepsLeft s t t.point) (advance cfg s) := by
  obtain ⟨-, -, -, -, -, -, -, ⟨-, -, -, -, hkd, hkr⟩, -⟩ := hinv.task t htask
  match hp : t.point with
  | .tx p =>
    rw [advance_of_tx htask hp]
    exact afterTx_below p
  | .rx p =>
    rw [advance_of_rx htask hp]
    generalize rxRequest cfg t p = q
    obtain ⟨answers, draws, hstate⟩ := receive_state q.1 q.2 s
    have hleft : stepsLeft (receive q.1 q.2 s).2 (keepAnswer q.1 q.2 (receive q.1 q.2 s).1 t) (.rx p) =
        stepsLeft s t (.rx p) := by
      rw [hstate]
      cases p <;> rfl
    exact hleft ▸ afterRx_below p _
  | .pause p =>
    rw [advance_of_pause htask hp]
    exact afterPause_below (fun h => hkd (h ▸ hp)) fun h => hkr (h ▸ hp)

theorem ownStep_below {s : State} {t : Task} (hinv : Inv s) (htask : s.task = some t) :
    Below (stepsLeft s t t.point) (ownStep s) := by
  unfold ownStep
  split
  · rename_i hdue
    obtain ⟨rxLog, h⟩ := cancel_eq_finish cfg hdue
    rw [h]
    exact finish_below _ _
  · exact advance_below hinv htask

/-- A running operation left to itself ends within its bound: each step lowers it, and the step that leaves no operation has set
DONE. -/
theorem ends_of_stepsLeft_lt {bound : Nat} {s : State} {t : Task} (hinv : Inv s) (htask : s.task = some t)
    (hin : s.inputs = []) (hleft : stepsLeft s t t.point < bound) :
    ∃ n u, n ≤ bound ∧ runSteps n s = .next u ∧ u.task = none ∧ u.done = true := by
  induction bound generalizing s t with
  | zero => exact absurd hleft (Nat.not_lt_zero _)
  | succ bound ih =>
    have hstep : step s = .next (ownStep s) := step_eq_ownStep hin
    cases hnext : (ownStep s).task with
    | none =>
      obtain ⟨-, hends, -⟩ := flagRules s _ hinv hstep (by simp [resetNext, hin])
      have hdone : (ownStep s).done = true := hends (busy_of_task htask) (busy_of_idle hnext)
      exact ⟨1, ownStep s, Nat.le_add_left 1 bound, runSteps_succ hstep, hnext, hdone⟩
    | some t' =>
      have hlower := ownStep_below hinv htask t' hnext
      obtain ⟨n, u, hn, hrun, hend⟩ := ih (stepKeepsInv s _ hinv hstep) hnext ((ownStep_kept s).inputs.trans hin) (by omega)
      exact ⟨n + 1, u, Nat.succ_le_succ hn, (runSteps_succ hstep).trans hrun, hend⟩

/-- Settles O53: three attempts of fewer than `attemptSteps` steps are the most there can be. -/
theorem everyOperationEnds : Obligations.EveryOperationEnds := by
  intro s hinv hbusy hin
  obtain ⟨t, htask⟩ := Option.ne_none_iff_exists'.mp hbusy
  obtain ⟨-, -, -, -, -, -, -, ⟨⟨hkw, -⟩, -, -, ⟨hkd, -⟩, -⟩, -⟩ := hinv.task t htask
  exact ends_of_stepsLeft_lt hinv htask hin (stepsLeft_lt hkd hkw)

end Sys2Proof.Proofs
